-- ==== Sys2Proof/Word.lean ====
section
/-!
DEFINITION. The three word types of the engine (00_scope.md R6: `SYMW` = `DW` = 8, `AW` = 11; 30_encoding.md R60: the
20-bit transaction word `TXN20`). Field elements, symbols, register contents and opcodes are all bytes.
-/

namespace Sys2Proof

/-- A byte: a field element, a symbol, a register's content or an opcode (00_scope.md R7). -/
abbrev Byte := BitVec 8

/-- A host address, 0x000 to 0x7FF (20_memory.md R40). -/
abbrev Addr := BitVec 11

/-- A transaction word in the format `TXN20` (30_encoding.md R60). -/
abbrev Txn := BitVec 20

end Sys2Proof
end

