-- ==== Sys2Proof/Config.lean ====
section
/-!
DEFINITION. What is fixed for this hardware (the parameters of 00_scope.md R6) and the free values: constants without a
body, which stand where the spec calls a content unspecified or gives no value. Nothing can be proved of a free value
beyond its type.
-/

namespace Sys2Proof.Config

/-- The two readings of `DIV` with both operands zero (00_scope.md R6, parameter `DIV_ZERO_ZERO`). -/
inductive DivZeroZero where
  /-- R <- 0x00 and no error. -/
  | zero
  /-- `DivisionByZero` whenever the divisor is zero. -/
  | fault
deriving DecidableEq, Repr

/-- The value this hardware takes (00_scope.md R6; 40_field_arithmetic.md R83; log entry 6). -/
def divZeroZero : DivZeroZero := .zero

/-- `GEN`: the generator of the geometric scheme (00_scope.md R6; 43_evaluation_scheme.md R131; log entry 7). -/
def generator : Byte := 0x02

/-- `NMAX`: the largest legal k + m (00_scope.md R6; 43_evaluation_scheme.md R132). -/
def maxCodeword : Nat := 255

/-- FREE VALUE (log entry 2). Entry `i` of `EXP` after the `n`-th `FIELD_INIT` that failed: 41_field_construction.md
R110 calls the contents unspecified. -/
opaque freeExp : Nat → Nat → Byte

/-- FREE VALUE (log entry 2). Entry `x` of `LOG` after the `n`-th `FIELD_INIT` that failed (R110). -/
opaque freeLog : Nat → Nat → Option Byte

/-- FREE VALUE (log entry 8). The exponent read for an element that has no entry in `LOG`: 40_field_arithmetic.md R86
gives it no value, and no reachable state reads one. -/
opaque missingLog : Byte → Byte

/-- FREE VALUE (log entry 9). The quotient of a nonzero numerator by a zero denominator inside `lagrange`:
42_encoder.md R121 requires pairwise distinct points, and no reachable state has such a denominator (R123). -/
opaque missingQuotient : Byte → Byte

end Sys2Proof.Config
end

