-- ==== Sys2Proof/Syntax.lean ====
section
/-!
DEFINITION. The instructions: one constructor per row of spec/opcode_table.json, two host transactions, the thirteen
commands and the fallback row `ILLEGAL` (30_encoding.md R62, R63, R67).
-/

namespace Sys2Proof

/-- A host transaction, with a write to `CMD` told apart by the command it executes (30_encoding.md R67). Commands
carry no operand fields (R61). -/
inductive Instr where
  /-- `RD(addr)` (20_memory.md R44). -/
  | rd (addr : Addr)
  /-- `WR(addr, data)` (20_memory.md R45). -/
  | wr (addr : Addr) (data : Byte)
  /-- `NOP`, opcode 0x00 (45_system.md R150). -/
  | nop
  /-- `FIELD_INIT`, opcode 0x01 (41_field_construction.md R110). -/
  | fieldInit
  /-- `SCHEME_INIT`, opcode 0x02 (43_evaluation_scheme.md R130). -/
  | schemeInit
  /-- `ENCODE`, opcode 0x03 (42_encoder.md R120). -/
  | encode
  /-- `RECONSTRUCT`, opcode 0x04 (44_reconstructor.md R140). -/
  | reconstruct
  /-- `ADD`, opcode 0x08 (40_field_arithmetic.md R87). -/
  | add
  /-- `SUB`, opcode 0x09 (R88). -/
  | sub
  /-- `MUL`, opcode 0x0A (R89). -/
  | mul
  /-- `DIV`, opcode 0x0B (R90). -/
  | div
  /-- `POW`, opcode 0x0C (R91). -/
  | pow
  /-- `INV`, opcode 0x0D (R92). -/
  | inv
  /-- `EXP`, opcode 0x0E (R93). -/
  | exp
  /-- `LOG`, opcode 0x0F (R94). -/
  | log
  /-- `WR(CMD, data)` with `data` no opcode (45_system.md R151). -/
  | illegal (data : Byte)
deriving DecidableEq, Repr

end Sys2Proof
end

