-- ==== Sys2Proof/WellFormed.lean ====
section
/-!
DEFINITION. Which instructions some transaction word spells: a generic `WR` does not address `CMD`, since such a word
selects a command row, and `ILLEGAL` carries no opcode (30_encoding.md R65, R67).
-/

namespace Sys2Proof

/-- The thirteen opcodes (30_encoding.md R63). -/
def opcodes : List Byte :=
  [0x00, 0x01, 0x02, 0x03, 0x04, 0x08, 0x09, 0x0A, 0x0B, 0x0C, 0x0D, 0x0E, 0x0F]

/-- The instruction is one that a transaction word spells. -/
def Instr.wf : Instr → Bool
  | .wr addr _ => addr != 0x000
  | .illegal data => !opcodes.contains data
  | .rd _ | .nop | .fieldInit | .schemeInit | .encode | .reconstruct | .add | .sub | .mul | .div | .pow | .inv
  | .exp | .log => true

end Sys2Proof
end

