-- ==== Sys2Proof/Decode.lean ====
section
/-!
DEFINITION. Decoding of transaction words and its inverse, from 30_encoding.md: the format `TXN20` (R60), the opcode
map (R63), the rows of the opcode table (R62) and the decoding procedure (R67).
-/

namespace Sys2Proof

/-- Why a 20-bit word spells no transaction. -/
inductive DecodeError where
  /-- `W` = 0 and `data` not 0x00 (30_encoding.md R60). -/
  | readWithData (data : Byte)
deriving DecidableEq, Repr

/-- `W`, bit 19: 1 = `WR`, 0 = `RD` (R60). -/
def txnIsWrite (w : Txn) : Bool := w.getLsbD 19

/-- `addr`, bits 18 to 8 (R60). -/
def txnAddr (w : Txn) : Addr := w.extractLsb' 8 11

/-- `data`, bits 7 to 0 (R60). -/
def txnData (w : Txn) : Byte := w.extractLsb' 0 8

/-- The command a byte written to `CMD` names, by the opcode map R63; every other byte is illegal (R65). -/
def decodeCommand (op : Byte) : Instr :=
  match op.toNat with
  | 0x00 => .nop
  | 0x01 => .fieldInit
  | 0x02 => .schemeInit
  | 0x03 => .encode
  | 0x04 => .reconstruct
  | 0x08 => .add
  | 0x09 => .sub
  | 0x0A => .mul
  | 0x0B => .div
  | 0x0C => .pow
  | 0x0D => .inv
  | 0x0E => .exp
  | 0x0F => .log
  | _ => .illegal op

/-- The decoding procedure of R67. -/
def decode (w : Txn) : Except DecodeError Instr :=
  if txnIsWrite w then
    if txnAddr w = 0x000 then .ok (decodeCommand (txnData w)) else .ok (.wr (txnAddr w) (txnData w))
  else if txnData w = 0x00 then .ok (.rd (txnAddr w))
  else .error (.readWithData (txnData w))

/-- The word of the triple (W, addr, data) (R60). -/
def txnWord (isWrite : Bool) (addr : Addr) (data : Byte) : Txn := BitVec.ofBool isWrite ++ addr ++ data

/-- The word of the transaction that executes the command with opcode `op` (R61, R63). -/
def commandWord (op : Byte) : Txn := txnWord true 0x000 op

/-- The encoder: the word that spells an instruction (R60, R62, R63). -/
def encode : Instr → Txn
  | .rd addr => txnWord false addr 0x00
  | .wr addr data => txnWord true addr data
  | .nop => commandWord 0x00
  | .fieldInit => commandWord 0x01
  | .schemeInit => commandWord 0x02
  | .encode => commandWord 0x03
  | .reconstruct => commandWord 0x04
  | .add => commandWord 0x08
  | .sub => commandWord 0x09
  | .mul => commandWord 0x0A
  | .div => commandWord 0x0B
  | .pow => commandWord 0x0C
  | .inv => commandWord 0x0D
  | .exp => commandWord 0x0E
  | .log => commandWord 0x0F
  | .illegal data => commandWord data

/-- A row of the opcode table: a word belongs to it when, under the mask, it equals the pattern (R62). -/
structure OpcodeRow where
  mnemonic : String
  pattern : Txn
  mask : Txn
deriving DecidableEq, Repr

/-- Row `RD` (R62). -/
def rowRd : OpcodeRow := ⟨"RD", 0x00000, 0x800FF⟩
/-- Row `WR` (R62). -/
def rowWr : OpcodeRow := ⟨"WR", 0x80000, 0x80000⟩
/-- Row `ILLEGAL` (R67). -/
def rowIllegal : OpcodeRow := ⟨"ILLEGAL", 0x80000, 0xFFF00⟩
/-- The row of a command: match 0x80000 + opcode, mask 0xFFFFF (R62). -/
def rowCommand (mnemonic : String) (op : Byte) : OpcodeRow :=
  ⟨mnemonic, 0x80000 + op.setWidth 20, 0xFFFFF⟩

/-- The row of the opcode table an instruction belongs to (R62, R63, R67). -/
def rowOf : Instr → OpcodeRow
  | .rd _ => rowRd
  | .wr _ _ => rowWr
  | .nop => rowCommand "NOP" 0x00
  | .fieldInit => rowCommand "FIELD_INIT" 0x01
  | .schemeInit => rowCommand "SCHEME_INIT" 0x02
  | .encode => rowCommand "ENCODE" 0x03
  | .reconstruct => rowCommand "RECONSTRUCT" 0x04
  | .add => rowCommand "ADD" 0x08
  | .sub => rowCommand "SUB" 0x09
  | .mul => rowCommand "MUL" 0x0A
  | .div => rowCommand "DIV" 0x0B
  | .pow => rowCommand "POW" 0x0C
  | .inv => rowCommand "INV" 0x0D
  | .exp => rowCommand "EXP" 0x0E
  | .log => rowCommand "LOG" 0x0F
  | .illegal _ => rowIllegal

/-- The opcode table, one row per mnemonic (R62, R63). -/
def opcodeTable : List OpcodeRow :=
  [rowRd, rowWr, rowOf .nop, rowOf .fieldInit, rowOf .schemeInit, rowOf .encode, rowOf .reconstruct, rowOf .add,
    rowOf .sub, rowOf .mul, rowOf .div, rowOf .pow, rowOf .inv, rowOf .exp, rowOf .log, rowIllegal]

/-- The transaction word a number of `nbits` bits holds, if it fits the 20 bits of `TXN20`. Bit 0 is bit 0 of the
word; a format of one fixed length has no later words. -/
def txnOfTableWord (nbits w : Nat) : Option Txn :=
  if w % 2 ^ nbits < 2 ^ 20 then some (BitVec.ofNat 20 (w % 2 ^ nbits)) else none

/-- The instruction the decoder reads from a word numbered as the opcode table numbers it. -/
def decodeTableWord (nbits w : Nat) : Option Instr :=
  match txnOfTableWord nbits w with
  | some t => (decode t).toOption
  | none => none

end Sys2Proof
end

