-- ==== Sys2Proof/Machine/State.lean ====
section
/-!
DEFINITION. The state of the engine (10_state.md R10), the host's events, the ways a step can stop, and the state after
reset (R34). Plain data throughout.
-/

namespace Sys2Proof.Machine

/-- The reasons a step can fault: none. An error of a command is a value of the next state, never a faulted machine
(60_exceptions.md R164, R171), and no state exists from which the next transaction is undefined (70_reset_and_hazards.md
R190). -/
inductive Fault where
deriving DecidableEq, Repr

/-- The reasons a step can be refused. -/
inductive Refusal where
  /-- Raised by an arm of `exec` for an instruction that has no meaning yet. Safe: the model stops. No arm raises it. -/
  | notModelled (mnemonic : String)
  /-- Raised by `step` for a 20-bit word that spells no transaction, `W` = 0 with nonzero `data` (30_encoding.md R60;
  93_implementation_defined.md S4: refuse). Safe: the model stops. -/
  | notATransaction (word : Txn)
deriving DecidableEq, Repr

/-- What the outside world can do to the engine (70_reset_and_hazards.md R190): a transaction, written as its `TXN20`
word, or reset. -/
inductive HostEvent where
  /-- A host transaction (30_encoding.md R60). -/
  | transaction (word : Txn)
  /-- The environment resets the engine between two transactions (R180). -/
  | reset
deriving DecidableEq, Repr

/-- The error kinds (60_exceptions.md R160). Their numeric codes are `ErrorKind.code`. -/
inductive ErrorKind where
  /-- `DLEN` differs from `K`, or `NSH` < `K`; alias `InsufficientShards` when `RECONSTRUCT` raises it. -/
  | invalidShardCount
  /-- `DIV` of a nonzero element by zero. -/
  | divisionByZero
  /-- Two selected slots of `RECONSTRUCT` hold the same position. -/
  | corruptedEvaluationPoints
  /-- `INV` of zero. -/
  | zeroHasNoInverse
  /-- `FIELD_INIT` with a polynomial that does not generate the full multiplicative group. -/
  | nonPrimitivePolynomial
  /-- `LOG` of zero. -/
  | logOfZero
  /-- A command that needs `FV` (or `SV`) executed without it. -/
  | notConfigured
  /-- `SCHEME_INIT` with an illegal `K`, `M` or `SCHEME`. -/
  | invalidConfiguration
  /-- A selected slot of `RECONSTRUCT` holds a position of no codeword symbol. -/
  | positionOutOfRange
  /-- A byte written to `CMD` that is no opcode. -/
  | illegalCommand
deriving DecidableEq, Repr

/-- The six host-visible buffers, as (host address, byte) pairs in canonical form (`Memory.wf`). -/
abbrev Memory := List Host.Cell

/-- The two internal tables (10_state.md R31, R32). -/
structure Tables where
  /-- `EXP[0..255]`: exponent to element (R31). -/
  exp : Vector Byte 256
  /-- `LOG[0..255]`: element to its exponent, if it has one (R32). -/
  log : Vector (Option Byte) 256
deriving DecidableEq, Repr

/-- The architectural state (10_state.md R10) and, last, three fields of the model's own. -/
structure State where
  /-- `CMD` (R25). -/
  cmd : Byte
  /-- `STATUS.FV`, field valid (R12). -/
  fv : Bool
  /-- `STATUS.SV`, scheme valid (R13). -/
  sv : Bool
  /-- `STATUS.ERR` (R23). -/
  err : Bool
  /-- `ERRCODE` (R24). -/
  errcode : Byte
  /-- `POLY` (R14). -/
  poly : Byte
  /-- `K` (R15). -/
  k : Byte
  /-- `M` (R16). -/
  m : Byte
  /-- `SCHEME` (R17). -/
  scheme : Byte
  /-- `DLEN` (R18). -/
  dlen : Byte
  /-- `NSH` (R19). -/
  nsh : Byte
  /-- `A` (R20). -/
  a : Byte
  /-- `B` (R20). -/
  b : Byte
  /-- `EL`, low byte of the exponent (R21). -/
  el : Byte
  /-- `EH`, high byte of the exponent (R21). -/
  eh : Byte
  /-- `R` (R22). -/
  r : Byte
  /-- `DATA`, `CW`, `SHPOS`, `SHVAL`, `OUT`, `XPT` (R26 to R30) at their host addresses (20_memory.md R41). -/
  mem : Memory
  /-- `EXP` and `LOG` (R31, R32). -/
  tables : Tables
  /-- MODEL'S OWN (log entry 2): how many free values have been drawn. -/
  freeCount : Nat
  /-- MODEL'S OWN (log entry 3): the host's remaining events, next first. -/
  pending : List HostEvent
  /-- MODEL'S OWN (log entry 4): the bytes returned to the host by `RD`, oldest first. -/
  hostReads : List Byte
deriving DecidableEq, Repr

/-- The tables at reset. R34 calls them unspecified and unobservable; the model names 0x00 and "no value" (DESIGN
CHOICE, log entry 1). -/
def Tables.reset : Tables where
  exp := Vector.replicate 256 0x00
  log := Vector.replicate 256 none

/-- The state after reset (10_state.md R34; 70_reset_and_hazards.md R180). -/
def State.reset : State where
  cmd := 0x00
  fv := false
  sv := false
  err := false
  errcode := 0x00
  poly := 0x00
  k := 0x00
  m := 0x00
  scheme := 0x00
  dlen := 0x00
  nsh := 0x00
  a := 0x00
  b := 0x00
  el := 0x00
  eh := 0x00
  r := 0x00
  mem := []
  tables := Tables.reset
  freeCount := 0
  pending := []
  hostReads := []

end Sys2Proof.Machine
end

