-- ==== Sys2Proof/Machine/Ops.lean ====
section
/-!
DEFINITION. The named operations over memory and registers that the meanings share: reading and writing the buffers,
the address map, ending a command (`done`, `raise`), the host's event queue and reset.
-/

namespace Sys2Proof.Machine

/-! ## Buffer memory -/

/-- What an address not listed reads as: the buffers' reset content (10_state.md R34; log entry 5). -/
def Memory.unlisted : Byte := 0x00

/-- The canonical form: addresses strictly rising, no cell equal to what an unlisted address reads as. -/
abbrev Memory.wf (mem : Memory) : Prop :=
  mem.Pairwise (fun c d => c.1 < d.1) ∧ ∀ c ∈ mem, c.2 ≠ Memory.unlisted

/-- The byte at an address. -/
def Memory.read : Memory → Nat → Byte
  | [], _ => Memory.unlisted
  | (x, v) :: rest, i => if x = i then v else Memory.read rest i

/-- The memory with one byte stored, in canonical form. -/
def Memory.write : Memory → Nat → Byte → Memory
  | [], i, v => if v = Memory.unlisted then [] else [(i, v)]
  | (x, u) :: rest, i, v =>
    if i < x then (if v = Memory.unlisted then (x, u) :: rest else (i, v) :: (x, u) :: rest)
    else if i = x then (if v = Memory.unlisted then rest else (i, v) :: rest)
    else (x, u) :: Memory.write rest i v

/-- The memory with bytes stored at consecutive addresses from `base` upward. -/
def Memory.writeBlock : Memory → Nat → List Byte → Memory
  | mem, _, [] => mem
  | mem, base, v :: vs => Memory.writeBlock (Memory.write mem base v) (base + 1) vs

/-! ## Address map (20_memory.md R41) -/

/-- What an address of the host space names. -/
inductive Loc where
  | cmd | status | errcode | poly | k | m | scheme | dlen | nsh | a | b | el | eh | r
  /-- `DATA[j]`. -/
  | data (j : Byte)
  /-- `CW[i]`. -/
  | cw (i : Byte)
  /-- `SHPOS[s]`. -/
  | shpos (s : Byte)
  /-- `SHVAL[s]`. -/
  | shval (s : Byte)
  /-- `OUT[i]`. -/
  | out (i : Byte)
  /-- `XPT[i]`. -/
  | xpt (i : Byte)
  /-- An unmapped address (R42). -/
  | unmapped
deriving DecidableEq, Repr

/-- First address of `DATA`. -/
def dataBase : Nat := 0x100
/-- First address of `CW`. -/
def cwBase : Nat := 0x200
/-- First address of `SHPOS`. -/
def shposBase : Nat := 0x300
/-- First address of `SHVAL`. -/
def shvalBase : Nat := 0x400
/-- First address of `OUT`. -/
def outBase : Nat := 0x500
/-- First address of `XPT`. -/
def xptBase : Nat := 0x600

/-- Page 0 of the map: the registers (R41). -/
def locOfRegisterPage (offset : Byte) : Loc :=
  match offset.toNat with
  | 0x00 => .cmd
  | 0x01 => .status
  | 0x02 => .errcode
  | 0x04 => .poly
  | 0x05 => .k
  | 0x06 => .m
  | 0x07 => .scheme
  | 0x08 => .dlen
  | 0x09 => .nsh
  | 0x0C => .a
  | 0x0D => .b
  | 0x0E => .el
  | 0x0F => .eh
  | 0x10 => .r
  | _ => .unmapped

/-- The address map R41, by page and offset. -/
def locOf (addr : Addr) : Loc :=
  let offset : Byte := addr.extractLsb' 0 8
  match (addr.extractLsb' 8 3 : BitVec 3).toNat with
  | 0 => locOfRegisterPage offset
  | 1 => .data offset
  | 2 => .cw offset
  | 3 => .shpos offset
  | 4 => .shval offset
  | 5 => .out offset
  | 6 => .xpt offset
  | _ => .unmapped

/-! ## Buffer entries by name -/

/-- `DATA[j]` (10_state.md R27). -/
def State.data (s : State) (j : Nat) : Byte := Memory.read s.mem (dataBase + j)
/-- `CW[i]` (R28). -/
def State.cw (s : State) (i : Nat) : Byte := Memory.read s.mem (cwBase + i)
/-- `SHPOS[j]` (R26). -/
def State.shpos (s : State) (j : Nat) : Byte := Memory.read s.mem (shposBase + j)
/-- `SHVAL[j]` (R26). -/
def State.shval (s : State) (j : Nat) : Byte := Memory.read s.mem (shvalBase + j)
/-- `OUT[i]` (R29). -/
def State.out (s : State) (i : Nat) : Byte := Memory.read s.mem (outBase + i)
/-- `XPT[i]` (R30). -/
def State.xpt (s : State) (i : Nat) : Byte := Memory.read s.mem (xptBase + i)

/-- One byte of a buffer stored at its host address. -/
def State.store (s : State) (address : Nat) (v : Byte) : State := { s with mem := Memory.write s.mem address v }

/-- Bytes of a buffer stored at consecutive host addresses. -/
def State.storeBlock (s : State) (base : Nat) (vs : List Byte) : State :=
  { s with mem := Memory.writeBlock s.mem base vs }

/-! ## Ending a command (60_exceptions.md section 2) -/

/-- The numeric code of an error kind (60_exceptions.md R160). -/
def ErrorKind.code : ErrorKind → Byte
  | .invalidShardCount => 0x01
  | .divisionByZero => 0x02
  | .corruptedEvaluationPoints => 0x03
  | .zeroHasNoInverse => 0x04
  | .nonPrimitivePolynomial => 0x05
  | .logOfZero => 0x06
  | .notConfigured => 0x07
  | .invalidConfiguration => 0x08
  | .positionOutOfRange => 0x09
  | .illegalCommand => 0x0A

/-- `CMD <- op`, the first effect of every command (10_state.md R25; 20_memory.md R45 (a)). -/
def State.latch (s : State) (op : Byte) : State := { s with cmd := op }

/-- `done`: the command ends successfully (R162). -/
def State.done (s : State) : State := { s with errcode := 0x00, err := false }

/-- `raise X`: the command ends at once, unsuccessfully (R163). This engine's one way to take an exceptional condition:
there is no trap, nothing is saved and no control is transferred (R164). -/
def State.raise (s : State) (e : ErrorKind) : State := { s with errcode := e.code, err := true }

/-- `R <- v` (10_state.md R22). -/
def State.setR (s : State) (v : Byte) : State := { s with r := v }

/-! ## The host's side -/

/-- The byte an `RD` returns reaches the host (20_memory.md R44; log entry 4). -/
def State.returnByte (s : State) (v : Byte) : State := { s with hostReads := s.hostReads ++ [v] }

/-- The state once the host's next event has been taken: `rest` is what remains. -/
def State.advance (s : State) (rest : List HostEvent) : State := { s with pending := rest }

/-- The effect of a reset event: every item of engine state takes its reset value (70_reset_and_hazards.md R180); what
the host has received and still intends is not the engine's, and the count of free values goes on (log entry 13). -/
def State.environmentReset (s : State) : State :=
  { State.reset with freeCount := s.freeCount, pending := s.pending, hostReads := s.hostReads }

/-- What the next step is about. -/
inductive Fetched where
  /-- The host has no further event (R190; log entry 11). -/
  | idle
  /-- The environment resets the engine; the state is the one with the event taken. -/
  | reset (s : State)
  /-- A transaction that spells an instruction; the state is the one with the event taken. -/
  | instr (i : Instr) (s : State)
  /-- A word that spells no transaction (30_encoding.md R60). -/
  | malformed (word : Txn)
deriving DecidableEq, Repr

/-- Takes the host's next event. -/
def fetch (s : State) : Fetched :=
  match s.pending with
  | [] => .idle
  | .reset :: rest => .reset (s.advance rest)
  | .transaction w :: rest =>
    match decode w with
    | .ok i => .instr i (s.advance rest)
    | .error _ => .malformed w

/-- Puts a word where the next step takes it: in front of the host's events. A number that does not fit `TXN20` names
no word, and nothing is placed. -/
def State.placeWord (s : State) (nbits w : Nat) : State :=
  match txnOfTableWord nbits w with
  | some t => { s with pending := .transaction t :: s.pending }
  | none => s

end Sys2Proof.Machine
end

