-- ==== Sys2Proof/Machine/Operands.lean ====
section
/-!
DEFINITION. Where the commands' operands come from (30_encoding.md R64) and the table lookups (10_state.md R31, R32).
-/

namespace Sys2Proof.Machine

/-- `E = sext_16(EH, EL)`: the exponent of `POW` (10_state.md R21; 30_encoding.md R64; 20_memory.md R47). -/
def State.exponent (s : State) : Int := (s.eh ++ s.el : BitVec 16).toInt

/-- `K` as a count. -/
def State.kNat (s : State) : Nat := s.k.toNat

/-- `K + M`, an unbounded integer (10_state.md R16). -/
def State.codeLength (s : State) : Nat := s.k.toNat + s.m.toNat

/-- `EXP[n]` for n = 0 to 255 (10_state.md R31). No rule asks for another index (40_field_arithmetic.md R101); the
index is taken modulo 256 so that the lookup is total. -/
def expAt (T : Tables) (n : Nat) : Byte := T.exp.get (Fin.ofNat 256 n)

/-- `LOG[x]`: the exponent of `x`, or no value (10_state.md R32). -/
def logAt (T : Tables) (x : Byte) : Option Byte := T.log.get (Fin.ofNat 256 x.toNat)

/-- `LOG[x].e` as a byte. An element with no entry gives a free value (log entry 8); no rule evaluates one
(40_field_arithmetic.md R86). -/
def logEntry (T : Tables) (x : Byte) : Byte := (logAt T x).getD (Config.missingLog x)

/-- `LOG[x].e` as an integer, for exponent arithmetic (00_scope.md R7). -/
def logExponent (T : Tables) (x : Byte) : Nat := (logEntry T x).toNat

end Sys2Proof.Machine
end

