-- ==== Sys2Proof/Machine/Field.lean ====
section
/-!
DEFINITION. The pure functions of the field (40_field_arithmetic.md R81 to R86), the generation of the tables and the
primitivity check (41_field_construction.md R111 to R113). Functions of their arguments and of the tables only
(00_scope.md R8).
-/

namespace Sys2Proof.Machine

/-! ## Table generation -/

/-- Doubling in the field: shift left by one, and XOR the polynomial if the top bit was set (R111). -/
def double (poly p : Byte) : Byte := if p.getLsbD 7 then (p <<< 1) ^^^ poly else p <<< 1

/-- `n` successive elements of the doubling sequence, from `e` on (R111). -/
def doublings (poly : Byte) : Nat → Byte → List Byte
  | 0, _ => []
  | n + 1, e => e :: doublings poly n (double poly e)

theorem doublings_length (poly : Byte) (n : Nat) (e : Byte) : (doublings poly n e).length = n := by
  induction n generalizing e with
  | zero => rfl
  | succ n ih => simp [doublings, ih]

/-- `EXP` as R111 generates it: exponents 0 to 254 by doubling from 0x01, exponent 255 duplicates exponent 0. -/
def genExp (poly : Byte) : Vector Byte 256 :=
  ⟨⟨doublings poly 255 0x01 ++ [0x01]⟩, by simp [doublings_length]⟩

/-- The entries `EXP[0..254]`. -/
def expCycle (exp : Vector Byte 256) : List Byte := exp.toList.take 255

/-- The exponent i in 0 to 254 with `EXP[i]` = v, if there is one (R112). -/
def findExponent (exp : Vector Byte 256) (v : Nat) : Option Byte :=
  ((expCycle exp).findIdx? fun e => e.toNat == v).map (BitVec.ofNat 8)

/-- `LOG` as R112 builds it: no value for zero, and for v = 1 to 255 the exponent that produces v. -/
def genLog (exp : Vector Byte 256) : Vector (Option Byte) 256 :=
  ⟨⟨none :: (List.range 255).map fun i => findExponent exp (i + 1)⟩, by simp⟩

/-- The primitivity check: every byte 1 to 255 occurs among `EXP[0..254]` (R113). -/
def coversGroup (exp : Vector Byte 256) : Bool :=
  let entries := expCycle exp
  (List.range 255).all fun i => entries.any fun e => e.toNat == i + 1

/-- Both tables, as `FIELD_INIT` leaves them for an accepted polynomial (R110 to R112). -/
def genTables (poly : Byte) : Tables := ⟨genExp poly, genLog (genExp poly)⟩

/-- Unspecified table contents, the `n`-th of the run (R110 step 4; log entry 2). -/
def freeTables (n : Nat) : Tables where
  exp := ⟨⟨(List.range 256).map (Config.freeExp n)⟩, by simp⟩
  log := ⟨⟨(List.range 256).map (Config.freeLog n)⟩, by simp⟩

/-! ## Arithmetic -/

/-- `gf_add` (R81). -/
def gfAdd (a b : Byte) : Byte := a ^^^ b

/-- `gf_sub` (R81). -/
def gfSub (a b : Byte) : Byte := a ^^^ b

/-- `gf_mul` (R82). -/
def gfMul (T : Tables) (a b : Byte) : Byte :=
  if a = 0x00 ∨ b = 0x00 then 0x00 else expAt T ((logExponent T a + logExponent T b) % 255)

/-- `gf_div` (R83): the clauses in the order written, under the parameter `DIV_ZERO_ZERO`. The remainder is the
Euclidean one (00_scope.md R7). -/
def gfDiv (T : Tables) (a b : Byte) : Except ErrorKind Byte :=
  if a = 0x00 ∧ (b ≠ 0x00 ∨ Config.divZeroZero = .zero) then .ok 0x00
  else if b = 0x00 then .error .divisionByZero
  else .ok (expAt T (((logExponent T a : Int) - (logExponent T b : Int)) % 255).toNat)

/-- `gf_pow` for any integer exponent (R84). -/
def gfPow (T : Tables) (a : Byte) (e : Int) : Byte :=
  if e = 0 then 0x01
  else if a = 0x00 then 0x00
  else expAt T (((logExponent T a : Int) * e) % 255).toNat

/-- `gf_inv` (R85). -/
def gfInv (T : Tables) (a : Byte) : Except ErrorKind Byte :=
  if a = 0x00 then .error .zeroHasNoInverse else .ok (expAt T (255 - logExponent T a))

/-- `gf_exp` (R86). -/
def gfExp (T : Tables) (n : Byte) : Byte := expAt T n.toNat

/-- `gf_log` (R86), with the error that stands for the explicit "no value" of zero (R94). -/
def gfLog (T : Tables) (x : Byte) : Except ErrorKind Byte :=
  if x = 0x00 then .error .logOfZero else .ok (logEntry T x)

end Sys2Proof.Machine
end

