-- ==== Sys2Proof/Machine/Flags.lean ====
section
/-!
DEFINITION. The flags of `STATUS` (10_state.md R12, R13, R23): the byte a host reads, and the invalidation of the field
and the scheme (R35). `ERR` is written by `State.done` and `State.raise`. There are no arithmetic flags (R23).
-/

namespace Sys2Proof.Machine

/-- The byte `RD(STATUS)` returns: bits 7 to 3 zero, then `ERR`, `SV`, `FV` (10_state.md R23; 20_memory.md R44). -/
def State.statusByte (s : State) : Byte :=
  (0#5 ++ BitVec.ofBool s.err ++ BitVec.ofBool s.sv ++ BitVec.ofBool s.fv : BitVec 8)

/-- `SV <- 0` (R13, R35). -/
def State.invalidateScheme (s : State) : State := { s with sv := false }

/-- `FV <- 0` and `SV <- 0` (R12, R35). -/
def State.invalidateField (s : State) : State := { s with fv := false, sv := false }

end Sys2Proof.Machine
end

