-- ==== Sys2Proof/Machine/Arithmetic.lean ====
section
/-!
DEFINITION. The eight scalar field commands (40_field_arithmetic.md R80, R87 to R94).
-/

namespace Sys2Proof.Machine

/-- What R80 says of all eight: refuse with `NotConfigured` while `FV` = 0, else write the function's value to `R` and
end, or raise the function's error leaving `R` unchanged. -/
def scalarCommand (op : Byte) (value : Except ErrorKind Byte) (s : State) : State :=
  if s.fv then
    match value with
    | .ok v => ((s.latch op).setR v).done
    | .error e => (s.latch op).raise e
  else (s.latch op).raise .notConfigured

/-- `ADD` (R87). -/
def execAdd (s : State) : Host.Outcome State Fault Refusal :=
  .next (scalarCommand 0x08 (.ok (gfAdd s.a s.b)) s)

/-- `SUB` (R88). -/
def execSub (s : State) : Host.Outcome State Fault Refusal :=
  .next (scalarCommand 0x09 (.ok (gfSub s.a s.b)) s)

/-- `MUL` (R89). -/
def execMul (s : State) : Host.Outcome State Fault Refusal :=
  .next (scalarCommand 0x0A (.ok (gfMul s.tables s.a s.b)) s)

/-- `DIV` (R90). -/
def execDiv (s : State) : Host.Outcome State Fault Refusal :=
  .next (scalarCommand 0x0B (gfDiv s.tables s.a s.b) s)

/-- `POW` (R91). -/
def execPow (s : State) : Host.Outcome State Fault Refusal :=
  .next (scalarCommand 0x0C (.ok (gfPow s.tables s.a s.exponent)) s)

/-- `INV` (R92). -/
def execInv (s : State) : Host.Outcome State Fault Refusal :=
  .next (scalarCommand 0x0D (gfInv s.tables s.a) s)

/-- `EXP` (R93). -/
def execExp (s : State) : Host.Outcome State Fault Refusal :=
  .next (scalarCommand 0x0E (.ok (gfExp s.tables s.a)) s)

/-- `LOG` (R94). -/
def execLog (s : State) : Host.Outcome State Fault Refusal :=
  .next (scalarCommand 0x0F (gfLog s.tables s.a) s)

end Sys2Proof.Machine
end

