-- ==== Sys2Proof/Machine/Construction.lean ====
section
/-!
DEFINITION. `FIELD_INIT` (41_field_construction.md R110).
-/

namespace Sys2Proof.Machine

/-- The tables of an accepted polynomial take effect (R110 step 5). -/
def State.acceptField (s : State) : State := { s with tables := genTables s.poly, fv := true }

/-- A rejected polynomial: `FV <- 0`, table contents unspecified (R110 step 4; log entry 2). -/
def State.rejectField (s : State) : State :=
  { s with tables := freeTables s.freeCount, freeCount := s.freeCount + 1, fv := false }

/-- `FIELD_INIT` (R110): first `SV <- 0`, then the check on the generated `EXP`. -/
def execFieldInit (s : State) : Host.Outcome State Fault Refusal :=
  let s := (s.latch 0x01).invalidateScheme
  if coversGroup (genExp s.poly) then .next s.acceptField.done
  else .next (s.rejectField.raise .nonPrimitivePolynomial)

end Sys2Proof.Machine
end

