-- ==== Sys2Proof/Machine/Interpolation.lean ====
section
/-!
DEFINITION. Lagrange interpolation (42_encoder.md R121), shared by `ENCODE` and `RECONSTRUCT`, in the reference order of
its pseudocode (R124).
-/

namespace Sys2Proof.Machine

/-- The quotient inside `lagrange`. The denominator is nonzero whenever the points are distinct (R121); a nonzero
numerator over zero gives a free value (log entry 9), as no rule gives it one. -/
def quotient (T : Tables) (num den : Byte) : Byte :=
  match gfDiv T num den with
  | .ok q => q
  | .error _ => Config.missingQuotient num

/-- The j-th term: V[j] times the product over l ≠ j of (x - X[l]) / (X[j] - X[l]). -/
def lagrangeTerm (T : Tables) (X V : Nat → Byte) (n : Nat) (x : Byte) (j : Nat) : Byte :=
  (List.range n).foldl
    (fun t l => if l = j then t else gfMul T t (quotient T (gfSub x (X l)) (gfSub (X j) (X l)))) (V j)

/-- `lagrange(X, V, n, x)` (R121). -/
def lagrange (T : Tables) (X V : Nat → Byte) (n : Nat) (x : Byte) : Byte :=
  (List.range n).foldl (fun acc j => gfAdd acc (lagrangeTerm T X V n x j)) 0x00

/-- The first `n` entries of a buffer, read once: a local list of a command (10_state.md R33). -/
def firstEntries (n : Nat) (buffer : Nat → Byte) : Array Byte := ((List.range n).map buffer).toArray

/-- Entry `i` of a local list; the commands ask for entries it has only. -/
def entry (list : Array Byte) (i : Nat) : Byte := list.getD i 0x00

end Sys2Proof.Machine
end

