-- ==== Sys2Proof/Machine/Encoder.lean ====
section
/-!
DEFINITION. `ENCODE` (42_encoder.md R120).
-/

namespace Sys2Proof.Machine

/-- The codeword of the data in `DATA[0..K-1]`: the data verbatim, then the interpolating polynomial at the points of
the m redundancy positions (R120 steps 3 and 4). -/
def State.codeword (s : State) : List Byte :=
  let X := firstEntries s.codeLength s.xpt
  let V := firstEntries s.kNat s.data
  V.toList ++
    (List.range s.m.toNat).map fun i => lagrange s.tables (entry X) (entry V) s.kNat (entry X (s.kNat + i))

/-- `ENCODE` (R120). -/
def execEncode (s : State) : Host.Outcome State Fault Refusal :=
  let s := s.latch 0x03
  if !s.fv || !s.sv then .next (s.raise .notConfigured)
  else if s.dlen ≠ s.k then .next (s.raise .invalidShardCount)
  else .next (s.storeBlock cwBase s.codeword).done

end Sys2Proof.Machine
end

