-- ==== Sys2Proof/Machine/Reconstructor.lean ====
section
/-!
DEFINITION. `RECONSTRUCT` (44_reconstructor.md R140 to R143).
-/

namespace Sys2Proof.Machine

/-- Some selected slot holds a position of no codeword symbol (R142 pass 1). -/
def State.someShardOutOfRange (s : State) : Bool :=
  (List.range s.kNat).any fun j => decide (s.codeLength ≤ (s.shpos j).toNat)

/-- Two selected slots hold the same position (R142 pass 2). -/
def State.someShardDuplicated (s : State) : Bool :=
  (List.range s.kNat).any fun l => (List.range l).any fun j => s.shpos j == s.shpos l

/-- The recovered data symbols: the selected nodes interpolated at the data points (R141, R143). -/
def State.recovered (s : State) : List Byte :=
  let X := firstEntries s.kNat fun j => s.xpt (s.shpos j).toNat
  let V := firstEntries s.kNat s.shval
  (List.range s.kNat).map fun i => lagrange s.tables (entry X) (entry V) s.kNat (s.xpt i)

/-- `RECONSTRUCT` (R140). -/
def execReconstruct (s : State) : Host.Outcome State Fault Refusal :=
  let s := s.latch 0x04
  if !s.fv || !s.sv then .next (s.raise .notConfigured)
  else if s.nsh.toNat < s.kNat then .next (s.raise .invalidShardCount)
  else if s.someShardOutOfRange then .next (s.raise .positionOutOfRange)
  else if s.someShardDuplicated then .next (s.raise .corruptedEvaluationPoints)
  else .next (s.storeBlock outBase s.recovered).done

end Sys2Proof.Machine
end

