-- ==== Sys2Proof/Machine/Scheme.lean ====
section
/-!
DEFINITION. `SCHEME_INIT` (43_evaluation_scheme.md R130 to R132).
-/

namespace Sys2Proof.Machine

/-- `n` geometric points from `x` on, each the previous one times the generator (R131). -/
def geometricPoints (T : Tables) : Nat → Byte → List Byte
  | 0, _ => []
  | n + 1, x => x :: geometricPoints T n (gfMul T x Config.generator)

/-- The sequential points 1, 2, ..., n (R131). -/
def sequentialPoints (n : Nat) : List Byte := (List.range n).map fun i => BitVec.ofNat 8 (i + 1)

/-- The points of the scheme kind a configuration selects: 0x00 geometric, 0x01 sequential (R131; 10_state.md R17). -/
def schemePoints (T : Tables) (scheme : Byte) (n : Nat) : List Byte :=
  if scheme = 0x00 then geometricPoints T n 0x01 else sequentialPoints n

/-- The legal configurations (R132). -/
def State.legalConfiguration (s : State) : Bool :=
  decide (1 ≤ s.kNat) && decide (s.codeLength ≤ Config.maxCodeword) && decide (s.scheme = 0x00 ∨ s.scheme = 0x01)

/-- `SV <- 1`. -/
def State.validateScheme (s : State) : State := { s with sv := true }

/-- `SCHEME_INIT` (R130). -/
def execSchemeInit (s : State) : Host.Outcome State Fault Refusal :=
  let s := s.latch 0x02
  if !s.fv then .next (s.raise .notConfigured)
  else if !s.legalConfiguration then .next (s.invalidateScheme.raise .invalidConfiguration)
  else .next ((s.storeBlock xptBase (schemePoints s.tables s.scheme s.codeLength)).validateScheme).done

end Sys2Proof.Machine
end

