-- ==== Sys2Proof/Machine/System.lean ====
section
/-!
DEFINITION. `NOP` and the illegal command (45_system.md R150, R151).
-/

namespace Sys2Proof.Machine

/-- `NOP` (R150). -/
def execNop (s : State) : Host.Outcome State Fault Refusal := .next (s.latch 0x00).done

/-- The illegal command (R151): `CMD` holds the byte written. -/
def execIllegal (data : Byte) (s : State) : Host.Outcome State Fault Refusal :=
  .next ((s.latch data).raise .illegalCommand)

end Sys2Proof.Machine
end

