-- ==== Sys2Proof/Machine/Transactions.lean ====
section
/-!
DEFINITION. The two host transactions `RD` (20_memory.md R44) and `WR` (R45), and the execution of the command a byte
written to `CMD` names (R46).
-/

namespace Sys2Proof.Machine

/-- The current value of a location (20_memory.md R44). -/
def State.readLoc (s : State) : Loc → Byte
  | .cmd => s.cmd
  | .status => s.statusByte
  | .errcode => s.errcode
  | .poly => s.poly
  | .k => s.k
  | .m => s.m
  | .scheme => s.scheme
  | .dlen => s.dlen
  | .nsh => s.nsh
  | .a => s.a
  | .b => s.b
  | .el => s.el
  | .eh => s.eh
  | .r => s.r
  | .data j => s.data j.toNat
  | .cw i => s.cw i.toNat
  | .shpos j => s.shpos j.toNat
  | .shval j => s.shval j.toNat
  | .out i => s.out i.toNat
  | .xpt i => s.xpt i.toNat
  | .unmapped => 0x00

/-- The byte `RD(addr)` returns (R44, R42). -/
def State.hostRead (s : State) (addr : Addr) : Byte := s.readLoc (locOf addr)

/-- `RD(addr)` (R44): the byte goes to the host and no engine state changes. -/
def execRd (addr : Addr) (s : State) : Host.Outcome State Fault Refusal := .next (s.returnByte (s.hostRead addr))

/-- The command the byte `v` names is executed; it leaves `CMD` holding `v` (R46; the dispatch of 45_system.md). -/
def executeCommand (v : Byte) (s : State) : Host.Outcome State Fault Refusal :=
  match v.toNat with
  | 0x00 => execNop s
  | 0x01 => execFieldInit s
  | 0x02 => execSchemeInit s
  | 0x03 => execEncode s
  | 0x04 => execReconstruct s
  | 0x08 => execAdd s
  | 0x09 => execSub s
  | 0x0A => execMul s
  | 0x0B => execDiv s
  | 0x0C => execPow s
  | 0x0D => execInv s
  | 0x0E => execExp s
  | 0x0F => execLog s
  | _ => execIllegal v s

/-- The effect of a `WR` to a location other than `CMD`, by the kind of location (R45 (b) to (f)). -/
def State.writeLoc (s : State) (v : Byte) : Loc → State
  | .poly => { s with poly := v }.invalidateField
  | .k => { s with k := v }.invalidateScheme
  | .m => { s with m := v }.invalidateScheme
  | .scheme => { s with scheme := v }.invalidateScheme
  | .dlen => { s with dlen := v }
  | .nsh => { s with nsh := v }
  | .a => { s with a := v }
  | .b => { s with b := v }
  | .el => { s with el := v }
  | .eh => { s with eh := v }
  | .data j => s.store (dataBase + j.toNat) v
  | .shpos j => s.store (shposBase + j.toNat) v
  | .shval j => s.store (shvalBase + j.toNat) v
  | .cmd | .status | .errcode | .r | .cw _ | .out _ | .xpt _ | .unmapped => s

/-- `WR(addr, v)` (R45). The decoder reads a write to `CMD` as the command it executes (30_encoding.md R67); the
generic form executes the same command. -/
def execWr (addr : Addr) (v : Byte) (s : State) : Host.Outcome State Fault Refusal :=
  if addr = 0x000 then executeCommand v s else .next (s.writeLoc v (locOf addr))

end Sys2Proof.Machine
end

