-- ==== Sys2Proof/Machine/Dispatch.lean ====
section
/-!
DEFINITION. The dispatch: one arm per instruction, each a direct call of its meaning.
-/

namespace Sys2Proof.Machine

def exec (i : Instr) (s : State) : Host.Outcome State Fault Refusal :=
  match i with
  | .rd addr => Sys2Proof.Machine.execRd addr s
  | .wr addr data => Sys2Proof.Machine.execWr addr data s
  | .nop => Sys2Proof.Machine.execNop s
  | .fieldInit => Sys2Proof.Machine.execFieldInit s
  | .schemeInit => Sys2Proof.Machine.execSchemeInit s
  | .encode => Sys2Proof.Machine.execEncode s
  | .reconstruct => Sys2Proof.Machine.execReconstruct s
  | .add => Sys2Proof.Machine.execAdd s
  | .sub => Sys2Proof.Machine.execSub s
  | .mul => Sys2Proof.Machine.execMul s
  | .div => Sys2Proof.Machine.execDiv s
  | .pow => Sys2Proof.Machine.execPow s
  | .inv => Sys2Proof.Machine.execInv s
  | .exp => Sys2Proof.Machine.execExp s
  | .log => Sys2Proof.Machine.execLog s
  | .illegal data => Sys2Proof.Machine.execIllegal data s

end Sys2Proof.Machine
end

