-- ==== Sys2Proof/Machine/Step.lean ====
section
/-!
DEFINITION. One step: the host's next event takes effect whole (20_memory.md R46, R51). With no event left the engine
does nothing (log entry 11).
-/

namespace Sys2Proof.Machine

/-- The host's next event takes effect: a reset (70_reset_and_hazards.md R180) or a transaction. -/
def step (s : State) : Host.Outcome State Fault Refusal :=
  match fetch s with
  | .idle => .next s
  | .reset s' => .next s'.environmentReset
  | .instr i s' => exec i s'
  | .malformed w => .refused (.notATransaction w)

/-- The state whose next step runs the given word: it stands in front of the host's events (log entry 3). -/
def State.withFetchWord (s : State) (nbits w : Nat) : State := s.placeWord nbits w

end Sys2Proof.Machine
end

