-- ==== Sys2Proof/Safety.lean ====
section
/-!
DEFINITION. What holds of every state a run reaches (10_state.md section 9 and the rules it collects), in the terms the
statements use.
-/

namespace Sys2Proof.Machine

/-- The polynomials `FIELD_INIT` accepts, as 41_field_construction.md R114 lists them. -/
def acceptedPolynomials : List Byte :=
  [0x1D, 0x2B, 0x2D, 0x4D, 0x5F, 0x63, 0x65, 0x69, 0x71, 0x87, 0x8D, 0xA9, 0xC3, 0xCF, 0xE7, 0xF5]

/-- The values `ERRCODE` can have once the command `cmd` has been executed: 0x00 for a success, and the codes the table
of 60_exceptions.md R161 gives the command. A byte that is no opcode always fails. -/
def possibleCodes (cmd : Byte) : List Byte :=
  match cmd.toNat with
  | 0x00 => [0x00]
  | 0x01 => [0x00, 0x05]
  | 0x02 => [0x00, 0x07, 0x08]
  | 0x03 => [0x00, 0x01, 0x07]
  | 0x04 => [0x00, 0x01, 0x03, 0x07, 0x09]
  | 0x08 | 0x09 | 0x0A | 0x0C | 0x0E => [0x00, 0x07]
  | 0x0B => [0x00, 0x02, 0x07]
  | 0x0D => [0x00, 0x04, 0x07]
  | 0x0F => [0x00, 0x06, 0x07]
  | _ => [0x0A]

/-- The buffer memory is canonical and lists addresses of the six buffer pages only (20_memory.md R41). -/
def MemoryOk (s : State) : Prop := Memory.wf s.mem ∧ ∀ c ∈ s.mem, 0x100 ≤ c.1 ∧ c.1 < 0x700

/-- `ERR` is 1 exactly when `ERRCODE` is not 0x00 (10_state.md R23), and `ERRCODE` is a code the command in `CMD` can
leave (R24; 60_exceptions.md R161). -/
def ErrorOk (s : State) : Prop := (s.err = true ↔ s.errcode ≠ 0x00) ∧ s.errcode ∈ possibleCodes s.cmd

/-- What `FV` = 1 means (10_state.md R12, R36): `POLY` passed the primitivity check and the tables are those generated
from it. -/
def FieldOk (s : State) : Prop :=
  s.fv = true → coversGroup (genExp s.poly) = true ∧ s.tables = genTables s.poly

/-- What `SV` = 1 means (10_state.md R13, R37): the field is valid, the configuration is legal, and `XPT` holds the
points generated from it. -/
def SchemeOk (s : State) : Prop :=
  s.sv = true → s.fv = true ∧ s.legalConfiguration = true ∧
    ∀ i < s.codeLength, s.xpt i = (schemePoints s.tables s.scheme s.codeLength).getD i 0x00

/-- The invariant of the machine: every state a run reaches satisfies it. -/
structure Inv (s : State) : Prop where
  memoryOk : MemoryOk s
  errorOk : ErrorOk s
  fieldOk : FieldOk s
  schemeOk : SchemeOk s

/-- The locations a host write can change without executing a command (20_memory.md R41): `POLY` to `NSH`, `A` to `EH`,
`DATA`, `SHPOS` and `SHVAL`. -/
def isStorable (addr : Addr) : Bool :=
  let x := addr.toNat
  (4 ≤ x && x ≤ 9) || (0x0C ≤ x && x ≤ 0x0F) || (0x100 ≤ x && x < 0x200) || (0x300 ≤ x && x < 0x500)

/-- The read-only locations (20_memory.md R43): `STATUS`, `ERRCODE`, `R`, `CW`, `OUT` and `XPT`. -/
def isReadOnly (addr : Addr) : Bool :=
  let x := addr.toNat
  x == 1 || x == 2 || x == 0x10 || (0x200 ≤ x && x < 0x300) || (0x500 ≤ x && x < 0x700)

/-- The unmapped addresses (20_memory.md R41, R42). -/
def isUnmapped (addr : Addr) : Bool :=
  let x := addr.toNat
  x == 3 || x == 0x0A || x == 0x0B || (0x11 ≤ x && x < 0x100) || 0x700 ≤ x

/-- The memory `mem'` differs from `mem` at most in the `len` bytes from `base` on. -/
def SameOutside (mem mem' : Memory) (base len : Nat) : Prop :=
  ∀ x : Nat, x < base ∨ base + len ≤ x → Memory.read mem' x = Memory.read mem x

/-- The selected slots hold positions of the codeword, each once (44_reconstructor.md R142). -/
def ShardsOk (s : State) : Prop :=
  (∀ j < s.kNat, (s.shpos j).toNat < s.codeLength) ∧
    ∀ j l, j < s.kNat → l < s.kNat → s.shpos j = s.shpos l → j = l

/-- The first n values of a list of points are pairwise distinct (42_encoder.md R121). -/
def DistinctPoints (X : Nat → Byte) (n : Nat) : Prop := ∀ j l, j < n → l < n → X j = X l → j = l

/-- The commands, as the decoder gives them: every instruction but the two host transactions (30_encoding.md R63,
R65). -/
def isCommand : Instr → Bool
  | .rd _ | .wr _ _ => false
  | .nop | .fieldInit | .schemeInit | .encode | .reconstruct | .add | .sub | .mul | .div | .pow | .inv | .exp | .log
  | .illegal _ => true

/-- The eight scalar field commands (40_field_arithmetic.md section 3). -/
def isScalar : Instr → Bool
  | .add | .sub | .mul | .div | .pow | .inv | .exp | .log => true
  | .rd _ | .wr _ _ | .nop | .fieldInit | .schemeInit | .encode | .reconstruct | .illegal _ => false

/-- The byte a command is written to `CMD` as: its opcode, or the illegal byte (30_encoding.md R61, R63). -/
def commandByte : Instr → Byte := fun i => txnData (encode i)

end Sys2Proof.Machine
end

