-- ==== Sys2Proof/Certificates/Slice0/Obligations.lean ====
section
/-!
DEFINITION. The statements about the engine, each from the rules of spec/ its docstring names.
-/

open Sys2Proof Sys2Proof.Machine

/-! ## Encoding (30_encoding.md) -/

/-- R62, R63, R67. Decoding the word of a well-formed instruction gives the instruction back, with every operand at
every value. -/
def Obligations.DecodeOfEncodeIsIdentity : Prop :=
  ∀ i : Instr, i.wf = true → decode (encode i) = .ok i

/-- R60: every word but a read with nonzero data spells exactly one transaction, and that transaction encodes to it. -/
def Obligations.EncodeOfDecodeIsIdentity : Prop :=
  ∀ w : Txn,
    (w.getLsbD 19 = false ∧ w.extractLsb' 0 8 ≠ 0x00 → ∃ e, decode w = .error e) ∧
    (¬(w.getLsbD 19 = false ∧ w.extractLsb' 0 8 ≠ 0x00) →
      ∃ i : Instr, decode w = .ok i ∧ i.wf = true ∧ encode i = w)

/-- R60, R63, R65. The fields of a transaction word and the opcode map. -/
def Obligations.WordFieldsAndOpcodeMap : Prop :=
  (∀ addr : Addr, decode (0#1 ++ addr ++ 0x00#8) = .ok (.rd addr)) ∧
  (∀ (addr : Addr) (data : Byte), data ≠ 0x00 → ∃ e, decode (0#1 ++ addr ++ data) = .error e) ∧
  (∀ (addr : Addr) (data : Byte), addr ≠ 0x000 → decode (1#1 ++ addr ++ data) = .ok (.wr addr data)) ∧
  decode 0x80000 = .ok .nop ∧ decode 0x80001 = .ok .fieldInit ∧ decode 0x80002 = .ok .schemeInit ∧
  decode 0x80003 = .ok .encode ∧ decode 0x80004 = .ok .reconstruct ∧ decode 0x80008 = .ok .add ∧
  decode 0x80009 = .ok .sub ∧ decode 0x8000A = .ok .mul ∧ decode 0x8000B = .ok .div ∧ decode 0x8000C = .ok .pow ∧
  decode 0x8000D = .ok .inv ∧ decode 0x8000E = .ok .exp ∧ decode 0x8000F = .ok .log ∧
  (∀ data : Byte, (0x05 ≤ data.toNat ∧ data.toNat ≤ 0x07) ∨ 0x10 ≤ data.toNat →
    decode (1#1 ++ 0x000#11 ++ data) = .ok (.illegal data)) ∧
  decode 0x8041D = .ok (.wr 0x004 0x1D) ∧ decode 0x01000 = .ok (.rd 0x010)

/-- The decoding examples of 95_test_vectors.md section 9, by R67: seven words written out there. -/
def Obligations.ExampleWordsDecode : Prop :=
  decode 0x8041D = .ok (.wr 0x004 0x1D) ∧ decode 0x80003 = .ok .encode ∧ decode 0x80055 = .ok (.illegal 0x55) ∧
  decode 0x01000 = .ok (.rd 0x010) ∧ decode 0x9FFAB = .ok (.wr 0x1FF 0xAB) ∧ decode 0x60400 = .ok (.rd 0x604) ∧
  decode 0x00301 = .error (.readWithData 0x01)

/-- R62, R67: the decoded instruction's row matches the word, and of all matching rows it has the largest mask. -/
def Obligations.LargestMatchingRowWins : Prop :=
  ∀ (w : Txn) (i : Instr), decode w = .ok i →
    w &&& (rowOf i).mask = (rowOf i).pattern ∧
    ∀ row ∈ opcodeTable, w &&& row.mask = row.pattern → row = rowOf i ∨ row.mask.toNat < (rowOf i).mask.toNat

/-! ## The step -/

/-- R46, R51: the host's next transaction runs, whole, as the instruction it spells; the step only takes the event. That
the host's events stand in `pending` is the model's choice (log entry 3). -/
def Obligations.StepRunsDecodedTransaction : Prop :=
  ∀ (s : State) (w : Txn) (rest : List HostEvent) (i : Instr),
    s.pending = .transaction w :: rest → decode w = .ok i → step s = exec i { s with pending := rest }

/-- A reset event gives every item of engine state its reset value (R180; the tables' is the model's, log entry 1); a
word that spells no transaction is refused by name (R60, 93_implementation_defined.md S4); with no event left the engine
idles (the model's choice, log entry 11). -/
def Obligations.StepOnOtherEvents : Prop :=
  (∀ (s : State) (rest : List HostEvent), s.pending = .reset :: rest →
    step s = .next { State.reset with freeCount := s.freeCount, pending := rest, hostReads := s.hostReads }) ∧
  (∀ (s : State) (w : Txn) (rest : List HostEvent) (e : DecodeError),
    s.pending = .transaction w :: rest → decode w = .error e → step s = .refused (.notATransaction w)) ∧
  (∀ s : State, s.pending = [] → step s = .next s)

/-- A word placed at the front of the host's events is what the next step runs (log entry 3). -/
def Obligations.PlacedWordRunsNext : Prop :=
  ∀ (s : State) (nbits w : Nat) (i : Instr), decodeTableWord nbits w = some i →
    step (s.withFetchWord nbits w) = exec i s

/-! ## Reset -/

/-- R34: the reset values the spec gives. (The tables, which it leaves unspecified, are not mentioned.) -/
def Obligations.ResetValues : Prop :=
  let s := State.reset
  s.cmd = 0x00 ∧ s.statusByte = 0x00 ∧ s.fv = false ∧ s.sv = false ∧ s.err = false ∧ s.errcode = 0x00 ∧
  s.poly = 0x00 ∧ s.k = 0x00 ∧ s.m = 0x00 ∧ s.scheme = 0x00 ∧ s.dlen = 0x00 ∧ s.nsh = 0x00 ∧
  s.a = 0x00 ∧ s.b = 0x00 ∧ s.el = 0x00 ∧ s.eh = 0x00 ∧ s.r = 0x00 ∧
  ∀ i < 256, s.data i = 0x00 ∧ s.cw i = 0x00 ∧ s.shpos i = 0x00 ∧ s.shval i = 0x00 ∧ s.out i = 0x00 ∧ s.xpt i = 0x00

/-- R181: what each command does in the reset state, and what each read returns (into `hostReads`, the model's choice,
log entry 4). -/
def Obligations.ResetBehaviour : Prop :=
  (∃ t, exec .nop State.reset = .next t ∧ t.errcode = 0x00 ∧ t.err = false) ∧
  (∃ t, exec .fieldInit State.reset = .next t ∧ t.errcode = 0x05 ∧ t.err = true) ∧
  (∀ i ∈ [Instr.schemeInit, .encode, .reconstruct, .add, .sub, .mul, .div, .pow, .inv, .exp, .log],
    ∃ t, exec i State.reset = .next t ∧ t.errcode = 0x07 ∧ t.err = true) ∧
  (∀ v : Byte, (Instr.illegal v).wf = true →
    ∃ t, exec (.illegal v) State.reset = .next t ∧ t.errcode = 0x0A ∧ t.err = true) ∧
  (∀ addr : Addr, ∃ t, exec (.rd addr) State.reset = .next t ∧ t.hostReads = [0x00])

/-- The state after reset satisfies the invariant. -/
def Obligations.ResetSatisfiesInvariant : Prop := Inv State.reset

/-- R12, R13, R23, R24, R36, R37: every step keeps the invariant, from every state that has it. -/
def Obligations.StepKeepsInvariant : Prop :=
  ∀ s t : State, Inv s → step s = .next t → Inv t

/-! ## Host transactions (20_memory.md) -/

/-- R44: `RD` returns the byte at the address and changes no engine state (`hostReads` is the host's, log entry 4). -/
def Obligations.ReadReturnsLocation : Prop :=
  ∀ (s : State) (addr : Addr),
    exec (.rd addr) s = .next { s with hostReads := s.hostReads ++ [
      if addr = 0x000 then s.cmd
      else if addr = 0x001 then (0#5 ++ BitVec.ofBool s.err ++ BitVec.ofBool s.sv ++ BitVec.ofBool s.fv : BitVec 8)
      else if addr = 0x002 then s.errcode
      else if addr = 0x004 then s.poly
      else if addr = 0x005 then s.k
      else if addr = 0x006 then s.m
      else if addr = 0x007 then s.scheme
      else if addr = 0x008 then s.dlen
      else if addr = 0x009 then s.nsh
      else if addr = 0x00C then s.a
      else if addr = 0x00D then s.b
      else if addr = 0x00E then s.el
      else if addr = 0x00F then s.eh
      else if addr = 0x010 then s.r
      else if 0x100 ≤ addr.toNat ∧ addr.toNat < 0x700 then Memory.read s.mem addr.toNat
      else 0x00] }

/-- R45: the effect of `WR` by the kind of its address, and nothing else. That the tables stay as they are after a write
to `POLY` is the model's choice (log entry 12: R14 and R45 over 93_implementation_defined.md S2). -/
def Obligations.WriteEffectByAddress : Prop :=
  (∀ (s : State) (addr : Addr) (v : Byte), addr ≠ 0x000 →
    exec (.wr addr v) s = .next (
      if addr = 0x004 then { s with poly := v, fv := false, sv := false }
      else if addr = 0x005 then { s with k := v, sv := false }
      else if addr = 0x006 then { s with m := v, sv := false }
      else if addr = 0x007 then { s with scheme := v, sv := false }
      else if addr = 0x008 then { s with dlen := v }
      else if addr = 0x009 then { s with nsh := v }
      else if addr = 0x00C then { s with a := v }
      else if addr = 0x00D then { s with b := v }
      else if addr = 0x00E then { s with el := v }
      else if addr = 0x00F then { s with eh := v }
      else if (0x100 ≤ addr.toNat ∧ addr.toNat < 0x200) ∨ (0x300 ≤ addr.toNat ∧ addr.toNat < 0x500) then
        { s with mem := Memory.write s.mem addr.toNat v }
      else s)) ∧
  (∀ (s : State) (v : Byte) (c : Instr), decode (1#1 ++ 0x000#11 ++ v) = .ok c →
    ∃ t, exec (.wr 0x000 v) s = .next t ∧ exec c s = .next t ∧ t.cmd = v)

/-- R42, R43: an unmapped address reads 0x00; a write to it or to a read-only location changes nothing. (Where the byte
read goes, `hostReads`, is the model's choice, log entry 4.) -/
def Obligations.UnmappedAndReadOnly : Prop :=
  (∀ (s : State) (addr : Addr), isUnmapped addr = true →
    exec (.rd addr) s = .next { s with hostReads := s.hostReads ++ [0x00] }) ∧
  (∀ (s : State) (addr : Addr) (v : Byte), isUnmapped addr = true ∨ isReadOnly addr = true →
    exec (.wr addr v) s = .next s)

/-- R45, R51: a location just written reads as written, and every other location but `STATUS` as before. -/
def Obligations.ReadAfterWrite : Prop :=
  ∀ (s : State) (addr : Addr) (v : Byte), Memory.wf s.mem → isStorable addr = true →
    ∃ t, exec (.wr addr v) s = .next t ∧ t.hostRead addr = v ∧
      ∀ b : Addr, b ≠ addr → b ≠ 0x001 → t.hostRead b = s.hostRead b

/-- R49: writing the same value to a location other than `CMD` twice equals writing it once. -/
def Obligations.RepeatedWriteEqualsOne : Prop :=
  ∀ (s : State) (addr : Addr) (v : Byte), Memory.wf s.mem → addr ≠ 0x000 →
    ∃ t, exec (.wr addr v) s = .next t ∧ exec (.wr addr v) t = .next t

/-! ## Scalar field commands (40_field_arithmetic.md) -/

/-- R80: without a valid field all eight refuse and change nothing else; with one they write `R` or raise their error,
and change nothing else. -/
def Obligations.ScalarCommandsFrame : Prop :=
  ∀ (i : Instr) (s : State), isScalar i = true →
    (s.fv = false → exec i s = .next { s with cmd := commandByte i, errcode := 0x07, err := true }) ∧
    (s.fv = true →
      (∃ v, exec i s = .next { s with cmd := commandByte i, r := v, errcode := 0x00, err := false }) ∨
      (∃ c, c ≠ 0x00 ∧ exec i s = .next { s with cmd := commandByte i, errcode := c, err := true }))

/-- R81, R87. -/
def Obligations.AddWritesXor : Prop :=
  ∀ s : State, s.fv = true →
    exec .add s = .next { s with cmd := 0x08, r := s.a ^^^ s.b, errcode := 0x00, err := false }

/-- R81, R88: `SUB` computes the same function as `ADD`. -/
def Obligations.SubWritesXor : Prop :=
  ∀ s : State, s.fv = true →
    exec .sub s = .next { s with cmd := 0x09, r := s.a ^^^ s.b, errcode := 0x00, err := false } ∧
    ∃ t u, exec .add s = .next t ∧ exec .sub s = .next u ∧ t.r = u.r

/-- R82, R89. -/
def Obligations.MulWritesProduct : Prop :=
  ∀ s : State, Inv s → s.fv = true →
    (s.a = 0x00 ∨ s.b = 0x00 →
      exec .mul s = .next { s with cmd := 0x0A, r := 0x00, errcode := 0x00, err := false }) ∧
    (s.a ≠ 0x00 → s.b ≠ 0x00 → ∃ la lb : Byte, logAt s.tables s.a = some la ∧ logAt s.tables s.b = some lb ∧
      exec .mul s = .next { s with
        cmd := 0x0A, r := expAt s.tables ((la.toNat + lb.toNat) % 255), errcode := 0x00, err := false })

/-- R83, R90, with the value `zero` of `DIV_ZERO_ZERO` (R6; log entry 6). -/
def Obligations.DivWritesQuotientOrRaises : Prop :=
  ∀ s : State, Inv s → s.fv = true →
    (s.a = 0x00 → exec .div s = .next { s with cmd := 0x0B, r := 0x00, errcode := 0x00, err := false }) ∧
    (s.a ≠ 0x00 → s.b = 0x00 → exec .div s = .next { s with cmd := 0x0B, errcode := 0x02, err := true }) ∧
    (s.a ≠ 0x00 → s.b ≠ 0x00 → ∃ la lb : Byte, logAt s.tables s.a = some la ∧ logAt s.tables s.b = some lb ∧
      exec .div s = .next { s with
        cmd := 0x0B, r := expAt s.tables (((la.toNat : Int) - (lb.toNat : Int)) % 255).toNat,
        errcode := 0x00, err := false })

/-- R84, R91: the exponent is the two's complement integer in `EH`, `EL` (R21). -/
def Obligations.PowWritesPower : Prop :=
  ∀ s : State, Inv s → s.fv = true →
    ((s.eh ++ s.el : BitVec 16).toInt = 0 →
      exec .pow s = .next { s with cmd := 0x0C, r := 0x01, errcode := 0x00, err := false }) ∧
    ((s.eh ++ s.el : BitVec 16).toInt ≠ 0 → s.a = 0x00 →
      exec .pow s = .next { s with cmd := 0x0C, r := 0x00, errcode := 0x00, err := false }) ∧
    ((s.eh ++ s.el : BitVec 16).toInt ≠ 0 → s.a ≠ 0x00 → ∃ la : Byte, logAt s.tables s.a = some la ∧
      exec .pow s = .next { s with
        cmd := 0x0C, r := expAt s.tables (((la.toNat : Int) * (s.eh ++ s.el : BitVec 16).toInt) % 255).toNat,
        errcode := 0x00, err := false })

/-- R85, R92. -/
def Obligations.InvWritesInverseOrRaises : Prop :=
  ∀ s : State, Inv s → s.fv = true →
    (s.a = 0x00 → exec .inv s = .next { s with cmd := 0x0D, errcode := 0x04, err := true }) ∧
    (s.a ≠ 0x00 → ∃ la : Byte, logAt s.tables s.a = some la ∧
      exec .inv s = .next { s with
        cmd := 0x0D, r := expAt s.tables (255 - la.toNat), errcode := 0x00, err := false })

/-- R86, R93. -/
def Obligations.ExpWritesTableEntry : Prop :=
  ∀ s : State, s.fv = true →
    exec .exp s = .next { s with cmd := 0x0E, r := expAt s.tables s.a.toNat, errcode := 0x00, err := false }

/-- R86, R94: the logarithm of zero is reported, and no number stands in for it. -/
def Obligations.LogWritesExponentOrRaises : Prop :=
  ∀ s : State, Inv s → s.fv = true →
    (s.a = 0x00 → exec .log s = .next { s with cmd := 0x0F, errcode := 0x06, err := true }) ∧
    (s.a ≠ 0x00 → ∃ la : Byte, logAt s.tables s.a = some la ∧ la.toNat ≤ 254 ∧
      exec .log s = .next { s with cmd := 0x0F, r := la, errcode := 0x00, err := false })

/-- The worked examples of R87 to R94, for `POLY` = 0x1D. -/
def Obligations.ScalarWorkedExamples : Prop :=
  ∀ s : State, Inv s → s.fv = true → s.poly = 0x1D →
    (s.a = 0x53 → s.b = 0xCA → ∃ t, exec .add s = .next t ∧ t.r = 0x99) ∧
    (s.a = 0x01 → s.b = 0x02 → ∃ t, exec .sub s = .next t ∧ t.r = 0x03) ∧
    (s.a = 0x53 → s.b = 0xCA → ∃ t, exec .mul s = .next t ∧ t.r = 0x8F) ∧
    (s.a = 0x01 → s.b = 0x02 → ∃ t, exec .div s = .next t ∧ t.r = 0x8E) ∧
    (s.a = 0x03 → s.eh = 0xFF → s.el = 0xFE → ∃ t, exec .pow s = .next t ∧ t.r = 0xA7) ∧
    (s.a = 0x53 → ∃ t, exec .inv s = .next t ∧ t.r = 0x8C) ∧
    (s.a = 0x08 → ∃ t, exec .exp s = .next t ∧ t.r = 0x1D) ∧
    (s.a = 0x1D → ∃ t, exec .log s = .next t ∧ t.r = 0x08)

/-! ## The field (40_field_arithmetic.md section 4, 41_field_construction.md) -/

/-- R110, R111, R112: for an accepted polynomial `FIELD_INIT` leaves the doubling table, its inverse and `FV` = 1. -/
def Obligations.FieldInitBuildsTables : Prop :=
  ∀ s : State, s.poly ∈ acceptedPolynomials → ∃ T : Tables,
    exec .fieldInit s = .next { s with
      cmd := 0x01, tables := T, fv := true, sv := false, errcode := 0x00, err := false } ∧
    expAt T 0 = 0x01 ∧
    (∀ i < 254, expAt T (i + 1) =
      if (expAt T i).getLsbD 7 = true then (expAt T i <<< 1) ^^^ s.poly else expAt T i <<< 1) ∧
    expAt T 255 = expAt T 0 ∧
    logAt T 0x00 = none ∧
    ∀ v : Byte, v ≠ 0x00 → ∃ e : Byte, logAt T v = some e ∧ e.toNat ≤ 254 ∧ expAt T e.toNat = v ∧
      ∀ i ≤ 254, expAt T i = v → i = e.toNat

/-- R110, R114: for each of the other 240 polynomials `FIELD_INIT` fails, and the field is gone. The table contents are
free (log entry 2). -/
def Obligations.FieldInitRejectsOthers : Prop :=
  ∀ s : State, s.poly ∉ acceptedPolynomials → ∃ (T : Tables) (n : Nat),
    exec .fieldInit s = .next { s with
      cmd := 0x01, tables := T, freeCount := n, fv := false, sv := false, errcode := 0x05, err := true }

/-- R113: the three formulations of the primitivity check agree with what `FIELD_INIT` accepts, and otherwise it fails
with `NonPrimitivePolynomial`. -/
def Obligations.PrimitivityFormulationsAgree : Prop :=
  ∀ s : State, ∃ t, exec .fieldInit s = .next t ∧
    (t.fv = true ↔ t.errcode = 0x00) ∧ (t.fv = false ↔ t.errcode = 0x05) ∧
    (t.fv = true ↔ ∀ v : Byte, v ≠ 0x00 → ∃ i ≤ 254, (genExp s.poly).get (Fin.ofNat 256 i) = v) ∧
    (t.fv = true ↔
      (∀ i j, i ≤ 254 → j ≤ 254 → (genExp s.poly).get (Fin.ofNat 256 i) = (genExp s.poly).get (Fin.ofNat 256 j) → i = j) ∧
      ∀ i ≤ 254, (genExp s.poly).get (Fin.ofNat 256 i) ≠ 0x00) ∧
    (t.fv = true ↔
      (∀ i, 1 ≤ i → i ≤ 254 → (genExp s.poly).get (Fin.ofNat 256 i) ≠ 0x01) ∧
      double s.poly ((genExp s.poly).get (Fin.ofNat 256 254)) = 0x01)

/-- R31, R32, R115: the tables while `FV` = 1. -/
def Obligations.TablesOfValidField : Prop :=
  ∀ s : State, Inv s → s.fv = true →
    (∀ i < 8, expAt s.tables i = BitVec.ofNat 8 (2 ^ i) ∧ logAt s.tables (BitVec.ofNat 8 (2 ^ i)) = some (BitVec.ofNat 8 i)) ∧
    expAt s.tables 8 = s.poly ∧ logAt s.tables s.poly = some 0x08 ∧ expAt s.tables 255 = 0x01 ∧
    gfMul s.tables (expAt s.tables 254) 0x02 = 0x01 ∧
    logAt s.tables 0x00 = none ∧
    (∀ e ≤ 254, expAt s.tables e ≠ 0x00 ∧ logAt s.tables (expAt s.tables e) = some (BitVec.ofNat 8 e)) ∧
    (∀ x : Byte, x ≠ 0x00 → ∃ e : Byte, logAt s.tables x = some e ∧ e.toNat ≤ 254 ∧ expAt s.tables e.toNat = x)

/-- R100: the document's inverse and division laws, while `FV` = 1. -/
def Obligations.InverseAndDivisionLaws : Prop :=
  ∀ s : State, Inv s → s.fv = true →
    (∀ a : Byte, a ≠ 0x00 → ∃ b, gfInv s.tables a = .ok b ∧ gfMul s.tables a b = 0x01) ∧
    (∀ a b : Byte, a ≠ 0x00 → b ≠ 0x00 → gfDiv s.tables (gfMul s.tables a b) b = .ok a)

/-- R100: while `FV` = 1 the bytes with `gf_add` and `gf_mul` are a field. -/
def Obligations.BytesFormField : Prop :=
  ∀ s : State, Inv s → s.fv = true →
    (∀ a b c : Byte, gfAdd (gfAdd a b) c = gfAdd a (gfAdd b c)) ∧
    (∀ a b : Byte, gfAdd a b = gfAdd b a) ∧
    (∀ a : Byte, gfAdd a 0x00 = a ∧ gfAdd a a = 0x00) ∧
    (∀ a b c : Byte, gfMul s.tables (gfMul s.tables a b) c = gfMul s.tables a (gfMul s.tables b c)) ∧
    (∀ a b : Byte, gfMul s.tables a b = gfMul s.tables b a) ∧
    (∀ a : Byte, gfMul s.tables a 0x01 = a) ∧
    (∀ a b c : Byte, gfMul s.tables a (gfAdd b c) = gfAdd (gfMul s.tables a b) (gfMul s.tables a c)) ∧
    (∀ a : Byte, a ≠ 0x00 → ∃ b, gfMul s.tables a b = 0x01)

/-- R102: the equivalences among inverse, quotient and power, while `FV` = 1. -/
def Obligations.PowerEquivalences : Prop :=
  ∀ s : State, Inv s → s.fv = true →
    (∀ a : Byte, a ≠ 0x00 →
      gfInv s.tables a = .ok (gfPow s.tables a 254) ∧ gfPow s.tables a 254 = gfPow s.tables a (-1)) ∧
    (∀ a b : Byte, a ≠ 0x00 → b ≠ 0x00 →
      ∃ c, gfInv s.tables b = .ok c ∧ gfDiv s.tables a b = .ok (gfMul s.tables a c)) ∧
    (∀ (a : Byte) (e f : Int), a ≠ 0x00 →
      gfPow s.tables a (e + 255 * f) = gfPow s.tables a e ∧
      gfPow s.tables a (e + f) = gfMul s.tables (gfPow s.tables a e) (gfPow s.tables a f)) ∧
    (∀ n : Int, gfPow s.tables 0x02 n = expAt s.tables (n % 255).toNat)

/-! ## Evaluation scheme (43_evaluation_scheme.md) -/

/-- R130, R131, R132: a legal configuration gives the points of its scheme, with the generator 0x02 (log entry 7), and
nothing else of memory changes. -/
def Obligations.SchemeInitWritesPoints : Prop :=
  ∀ s : State, Memory.wf s.mem → s.fv = true → 1 ≤ s.k.toNat → s.k.toNat + s.m.toNat ≤ 255 →
    s.scheme = 0x00 ∨ s.scheme = 0x01 → ∃ mem : Memory,
      exec .schemeInit s = .next { s with cmd := 0x02, sv := true, mem := mem, errcode := 0x00, err := false } ∧
      (s.scheme = 0x00 → Memory.read mem 0x600 = 0x01 ∧ ∀ i, i + 1 < s.k.toNat + s.m.toNat →
        Memory.read mem (0x600 + (i + 1)) = gfMul s.tables (Memory.read mem (0x600 + i)) 0x02) ∧
      (s.scheme = 0x01 → ∀ i < s.k.toNat + s.m.toNat, Memory.read mem (0x600 + i) = BitVec.ofNat 8 (i + 1)) ∧
      SameOutside s.mem mem 0x600 (s.k.toNat + s.m.toNat)

/-- R130, R132: without a valid field `NotConfigured`; an illegal configuration clears `SV`. -/
def Obligations.SchemeInitErrors : Prop :=
  ∀ s : State,
    (s.fv = false → exec .schemeInit s = .next { s with cmd := 0x02, errcode := 0x07, err := true }) ∧
    (s.fv = true → ¬(1 ≤ s.k.toNat ∧ s.k.toNat + s.m.toNat ≤ 255 ∧ (s.scheme = 0x00 ∨ s.scheme = 0x01)) →
      exec .schemeInit s = .next { s with cmd := 0x02, sv := false, errcode := 0x08, err := true })

/-- R37, R133, R135: while `SV` = 1 the configuration is legal and the points are distinct and nonzero; the geometric
ones are the first entries of `EXP`, which rests on the generator 0x02 (log entry 7). -/
def Obligations.PointsOfValidScheme : Prop :=
  ∀ s : State, Inv s → s.sv = true →
    1 ≤ s.k.toNat ∧ s.k.toNat + s.m.toNat ≤ 255 ∧ (s.scheme = 0x00 ∨ s.scheme = 0x01) ∧
    DistinctPoints s.xpt (s.k.toNat + s.m.toNat) ∧
    (∀ i < s.k.toNat + s.m.toNat, s.xpt i ≠ 0x00) ∧
    (s.scheme = 0x00 → ∀ i < s.k.toNat + s.m.toNat, s.xpt i = expAt s.tables i)

/-! ## Encoder (42_encoder.md) -/

/-- R121: `lagrange` is the sum over j of V[j] times the product of the quotients; over distinct points no denominator
is zero and no quotient fails; one node gives its own value. -/
def Obligations.LagrangeFormula : Prop :=
  ∀ (s : State) (X V : Nat → Byte) (n : Nat) (x : Byte), Inv s → s.fv = true → DistinctPoints X n →
    (∀ j l, j < n → l < n → l ≠ j →
      X j ^^^ X l ≠ 0x00 ∧ ∃ q, gfDiv s.tables (x ^^^ X l) (X j ^^^ X l) = .ok q ∧ (x = X l → q = 0x00)) ∧
    (n = 1 → lagrange s.tables X V n x = V 0) ∧
    lagrange s.tables X V n x =
      (List.range n).foldl (fun acc j => acc ^^^ gfMul s.tables (V j)
        (((List.range n).filter fun l => l ≠ j).foldl
          (fun t l => gfMul s.tables t (quotient s.tables (x ^^^ X l) (X j ^^^ X l))) 0x01)) 0x00

/-- R120: the codeword is the data followed by the interpolated symbols, and nothing else of memory changes. -/
def Obligations.EncodeWritesCodeword : Prop :=
  ∀ s : State, Memory.wf s.mem → s.fv = true → s.sv = true → s.dlen = s.k → ∃ mem : Memory,
    exec .encode s = .next { s with cmd := 0x03, mem := mem, errcode := 0x00, err := false } ∧
    (∀ j < s.k.toNat, Memory.read mem (0x200 + j) = Memory.read s.mem (0x100 + j)) ∧
    (∀ i, s.k.toNat ≤ i → i < s.k.toNat + s.m.toNat →
      Memory.read mem (0x200 + i) = lagrange s.tables s.xpt s.data s.k.toNat (s.xpt i)) ∧
    SameOutside s.mem mem 0x200 (s.k.toNat + s.m.toNat)

/-- R120: the two errors, in their priority. -/
def Obligations.EncodeErrors : Prop :=
  ∀ s : State,
    (s.fv = false ∨ s.sv = false → exec .encode s = .next { s with cmd := 0x03, errcode := 0x07, err := true }) ∧
    (s.fv = true → s.sv = true → s.dlen ≠ s.k →
      exec .encode s = .next { s with cmd := 0x03, errcode := 0x01, err := true })

/-- R122: the data stand unmodified in the codeword, and agree with the polynomial at their points. -/
def Obligations.EncodeIsSystematic : Prop :=
  ∀ s : State, Inv s → s.sv = true → s.dlen = s.k → ∃ t, exec .encode s = .next t ∧ t.errcode = 0x00 ∧
    ∀ j < s.k.toNat, t.cw j = s.data j ∧ lagrange s.tables s.xpt s.data s.k.toNat (s.xpt j) = s.data j

/-- R127: data equal to their own evaluation points, at least two of them, encode to the points. -/
def Obligations.OwnPointsEncodeToPoints : Prop :=
  ∀ s : State, Inv s → s.sv = true → s.dlen = s.k → 2 ≤ s.k.toNat → (∀ j < s.k.toNat, s.data j = s.xpt j) →
    ∃ t, exec .encode s = .next t ∧ ∀ i < s.k.toNat + s.m.toNat, t.cw i = s.xpt i

/-! ## Reconstructor (44_reconstructor.md) -/

/-- R140, R143: `OUT` receives the interpolation of the selected nodes at the data points, and nothing else of memory
changes. -/
def Obligations.ReconstructWritesData : Prop :=
  ∀ s : State, Memory.wf s.mem → s.fv = true → s.sv = true → s.k.toNat ≤ s.nsh.toNat → ShardsOk s → ∃ mem : Memory,
    exec .reconstruct s = .next { s with cmd := 0x04, mem := mem, errcode := 0x00, err := false } ∧
    (∀ i < s.k.toNat, Memory.read mem (0x500 + i) =
      lagrange s.tables (fun j => s.xpt (s.shpos j).toNat) s.shval s.k.toNat (s.xpt i)) ∧
    SameOutside s.mem mem 0x500 s.k.toNat

/-- R140, R142, R167: the four errors, in their priority; each changes nothing else. -/
def Obligations.ReconstructErrors : Prop :=
  ∀ s : State,
    (s.fv = false ∨ s.sv = false →
      exec .reconstruct s = .next { s with cmd := 0x04, errcode := 0x07, err := true }) ∧
    (s.fv = true → s.sv = true → s.nsh.toNat < s.k.toNat →
      exec .reconstruct s = .next { s with cmd := 0x04, errcode := 0x01, err := true }) ∧
    (s.fv = true → s.sv = true → s.k.toNat ≤ s.nsh.toNat →
      (∃ j < s.k.toNat, s.k.toNat + s.m.toNat ≤ (s.shpos j).toNat) →
      exec .reconstruct s = .next { s with cmd := 0x04, errcode := 0x09, err := true }) ∧
    (s.fv = true → s.sv = true → s.k.toNat ≤ s.nsh.toNat →
      (∀ j < s.k.toNat, (s.shpos j).toNat < s.k.toNat + s.m.toNat) →
      (∃ j l, j < l ∧ l < s.k.toNat ∧ s.shpos j = s.shpos l) →
      exec .reconstruct s = .next { s with cmd := 0x04, errcode := 0x03, err := true })

/-- R146: a selected shard at a data position passes through. -/
def Obligations.DataShardPassesThrough : Prop :=
  ∀ (s : State) (j i : Nat), Inv s → s.sv = true → s.k.toNat ≤ s.nsh.toNat → ShardsOk s →
    j < s.k.toNat → i < s.k.toNat → (s.shpos j).toNat = i →
    ∃ t, exec .reconstruct s = .next t ∧ t.errcode = 0x00 ∧ t.out i = s.shval j

/-- R141: slots K and above are not read: changing them changes neither the error code nor `OUT`. -/
def Obligations.UnselectedSlotsAreNotRead : Prop :=
  ∀ (s : State) (mem : Memory), Memory.wf s.mem → Memory.wf mem →
    (∀ x : Nat, ¬(0x300 + s.k.toNat ≤ x ∧ x < 0x400) → ¬(0x400 + s.k.toNat ≤ x ∧ x < 0x500) →
      Memory.read mem x = Memory.read s.mem x) →
    ∃ t u, exec .reconstruct s = .next t ∧ exec .reconstruct { s with mem := mem } = .next u ∧
      u.errcode = t.errcode ∧ ∀ i < 256, u.out i = t.out i

/-- R126, R144: from any K pairs of distinct positions of a codeword and its symbols there, under the same field and
scheme, `RECONSTRUCT` recovers the data that `ENCODE` encoded. -/
def Obligations.ReconstructInvertsEncode : Prop :=
  ∀ s t u : State, Inv s → s.sv = true → s.dlen = s.k → exec .encode s = .next t →
    Inv u → u.sv = true → u.poly = s.poly → u.k = s.k → u.m = s.m → u.scheme = s.scheme →
    u.k.toNat ≤ u.nsh.toNat → ShardsOk u → (∀ j < u.k.toNat, u.shval j = t.cw (u.shpos j).toNat) →
    ∃ v, exec .reconstruct u = .next v ∧ v.errcode = 0x00 ∧ ∀ i < u.k.toNat, v.out i = s.data i

/-! ## System commands (45_system.md) -/

/-- R150: `WR CMD, 0x00` is `NOP`, which clears the error indication and changes nothing else (but `CMD`, R25). -/
def Obligations.NopClearsError : Prop :=
  decode 0x80000 = .ok .nop ∧
  ∀ s : State, exec .nop s = .next { s with cmd := 0x00, errcode := 0x00, err := false }

/-- R65, R151: a byte that is no opcode, written to `CMD`, is an illegal command; it is reported and changes nothing
else, in any state. -/
def Obligations.IllegalCommandReported : Prop :=
  ∀ (s : State) (v : Byte), (0x05 ≤ v.toNat ∧ v.toNat ≤ 0x07) ∨ 0x10 ≤ v.toNat →
    decode (1#1 ++ 0x000#11 ++ v) = .ok (.illegal v) ∧
    exec (.illegal v) s = .next { s with cmd := v, errcode := 0x0A, err := true }

/-! ## Rules over all instructions (60_exceptions.md, 10_state.md) -/

/-- R164, R171, R190: every instruction answers a next state in every state, and a step stops only at a word that spells
no transaction (the refusal, and the idle step, are the model's choices, log entries 10 and 11). -/
def Obligations.EveryInstructionAnswers : Prop :=
  (∀ (i : Instr) (s : State), ∃ t, exec i s = .next t) ∧
  ∀ s : State, (∃ t, step s = .next t) ∨
    ∃ w rest e, s.pending = .transaction w :: rest ∧ decode w = .error e ∧ step s = .refused (.notATransaction w)

/-- R25, R46, R161: a command leaves its byte in `CMD` and one of its own codes in `ERRCODE`. -/
def Obligations.CommandsLeaveTheirCodes : Prop :=
  ∀ (i : Instr) (s : State), i.wf = true → isCommand i = true → ∃ t, exec i s = .next t ∧
    t.cmd = commandByte i ∧ t.errcode ∈ possibleCodes (commandByte i) ∧ (t.err = true ↔ t.errcode ≠ 0x00)

/-- R163: a failing command changes nothing but `CMD` and the error indication, with the two stated exceptions. The
counter `freeCount`, which a failed `FIELD_INIT` advances, is the model's (log entry 2). -/
def Obligations.FailureChangesNothingElse : Prop :=
  ∀ (i : Instr) (s t : State), isCommand i = true → exec i s = .next t → t.errcode ≠ 0x00 →
    (i ≠ .fieldInit → i ≠ .schemeInit →
      t = { s with cmd := commandByte i, errcode := t.errcode, err := true }) ∧
    (i = .schemeInit → t.errcode = 0x07 → t = { s with cmd := 0x02, errcode := 0x07, err := true }) ∧
    (i = .schemeInit → t.errcode ≠ 0x07 → t = { s with cmd := 0x02, sv := false, errcode := 0x08, err := true }) ∧
    (i = .fieldInit → t = { s with
      cmd := 0x01, fv := false, sv := false, tables := t.tables, freeCount := t.freeCount, errcode := 0x05, err := true })

/-- R169: a failed command, executed again at once, fails again with the same code. -/
def Obligations.FailedCommandFailsAgain : Prop :=
  ∀ (i : Instr) (s t : State), isCommand i = true → exec i s = .next t → t.errcode ≠ 0x00 →
    ∃ u, exec i t = .next u ∧ u.errcode = t.errcode

/-- R12, R13, R35: what sets the validity flags, what clears them, and that nothing else does. -/
def Obligations.ValidityFlagChanges : Prop :=
  ∀ (i : Instr) (s : State), i.wf = true → ∃ t, exec i s = .next t ∧
    ((∃ v, i = .wr 0x004 v) → t.fv = false ∧ t.sv = false) ∧
    ((∃ v, i = .wr 0x005 v ∨ i = .wr 0x006 v ∨ i = .wr 0x007 v) → t.fv = s.fv ∧ t.sv = false) ∧
    (i = .fieldInit → t.sv = false ∧ (t.fv = true ↔ t.errcode = 0x00)) ∧
    (i = .schemeInit → t.fv = s.fv ∧ (t.errcode = 0x00 → t.sv = true) ∧ (t.errcode = 0x08 → t.sv = false) ∧
      (t.errcode = 0x07 → t.sv = s.sv)) ∧
    ((∀ v, i ≠ .wr 0x004 v ∧ i ≠ .wr 0x005 v ∧ i ≠ .wr 0x006 v ∧ i ≠ .wr 0x007 v) → i ≠ .fieldInit →
      i ≠ .schemeInit → t.fv = s.fv ∧ t.sv = s.sv)

/-- R22, R23, R24, R25, R31, R32: host transactions change neither the error indication, nor `R`, nor `CMD`, nor the
tables; only a successful scalar command changes `R`, and only `FIELD_INIT` the tables. That a write to `POLY` keeps the
tables is the model's choice (log entry 12: R14 over 93_implementation_defined.md S1 and S2). -/
def Obligations.ResultAndTableWriters : Prop :=
  ∀ (i : Instr) (s : State), i.wf = true → ∃ t, exec i s = .next t ∧
    (isCommand i = false → t.cmd = s.cmd ∧ t.errcode = s.errcode ∧ t.err = s.err) ∧
    (t.r ≠ s.r → isScalar i = true ∧ t.errcode = 0x00) ∧
    (t.tables ≠ s.tables → i = .fieldInit)

/-- R20, R21, R64, R80, R110, R120, R130, R140, R150, R151: no command writes a configuration, argument or operand
register. That commands keep `pending` and `hostReads` is the model's choice (log entries 3 and 4). -/
def Obligations.CommandsKeepHostRegisters : Prop :=
  ∀ (i : Instr) (s : State), isCommand i = true → ∃ t, exec i s = .next t ∧
    t.poly = s.poly ∧ t.k = s.k ∧ t.m = s.m ∧ t.scheme = s.scheme ∧ t.dlen = s.dlen ∧ t.nsh = s.nsh ∧
    t.a = s.a ∧ t.b = s.b ∧ t.el = s.el ∧ t.eh = s.eh ∧ t.pending = s.pending ∧ t.hostReads = s.hostReads

/-- R26 to R30: the only bytes a command changes are `CW[0..K+M-1]` by a successful `ENCODE`, `OUT[0..K-1]` by a
successful `RECONSTRUCT` and `XPT[0..K+M-1]` by a successful `SCHEME_INIT`; entry 255 of no buffer changes. -/
def Obligations.CommandsWriteOnlyTheirBuffers : Prop :=
  ∀ (i : Instr) (s : State) (x : Nat), Inv s → isCommand i = true → ∃ t, exec i s = .next t ∧
    (Memory.read t.mem x ≠ Memory.read s.mem x → t.errcode = 0x00 ∧ x % 256 ≠ 255 ∧
      ((i = .encode ∧ 0x200 ≤ x ∧ x < 0x200 + (s.k.toNat + s.m.toNat)) ∨
       (i = .reconstruct ∧ 0x500 ≤ x ∧ x < 0x500 + s.k.toNat) ∨
       (i = .schemeInit ∧ 0x600 ≤ x ∧ x < 0x600 + (s.k.toNat + s.m.toNat))))
end

