-- ==== Sys2Proof/Laws/AddressMap.lean ====
section
/-!
SUPPORT. The address map (20_memory.md R41) as one chain of address ranges, and the executed command's byte.
-/

namespace Sys2Proof.Machine

/-- Everything the address map says. -/
theorem locOf_eq (addr : Addr) : locOf addr =
    if addr = 0x000 then .cmd
    else if addr = 0x001 then .status
    else if addr = 0x002 then .errcode
    else if addr = 0x004 then .poly
    else if addr = 0x005 then .k
    else if addr = 0x006 then .m
    else if addr = 0x007 then .scheme
    else if addr = 0x008 then .dlen
    else if addr = 0x009 then .nsh
    else if addr = 0x00C then .a
    else if addr = 0x00D then .b
    else if addr = 0x00E then .el
    else if addr = 0x00F then .eh
    else if addr = 0x010 then .r
    else if addr.toNat < 0x100 then .unmapped
    else if addr.toNat < 0x200 then .data (BitVec.ofNat 8 (addr.toNat - dataBase))
    else if addr.toNat < 0x300 then .cw (BitVec.ofNat 8 (addr.toNat - cwBase))
    else if addr.toNat < 0x400 then .shpos (BitVec.ofNat 8 (addr.toNat - shposBase))
    else if addr.toNat < 0x500 then .shval (BitVec.ofNat 8 (addr.toNat - shvalBase))
    else if addr.toNat < 0x600 then .out (BitVec.ofNat 8 (addr.toNat - outBase))
    else if addr.toNat < 0x700 then .xpt (BitVec.ofNat 8 (addr.toNat - xptBase))
    else .unmapped := by
  revert addr; decide +kernel

/-- The word that writes `v` to `CMD` decodes to the command `v` names (30_encoding.md R67). -/
theorem decode_commandWord (v : Byte) : decode (commandWord v) = .ok (decodeCommand v) := by
  revert v; decide +kernel

/-- An address inside a buffer page, from the page's first address and the offset. -/
theorem base_add_offset {x base : Nat} (hb : base ≤ x) (hx : x < base + 0x100) :
    base + (BitVec.ofNat 8 (x - base)).toNat = x := by
  rw [BitVec.toNat_ofNat, Nat.mod_eq_of_lt (by omega)]; omega

end Sys2Proof.Machine
end

