-- ==== Sys2Proof/Laws/Memory.lean ====
section
/-!
SUPPORT. The buffer memory: every operation keeps the canonical form, a read after a write gives the byte written, and a
write leaves every other address alone.
-/

namespace Sys2Proof.Machine

theorem reset_mem_wf : Memory.wf State.reset.mem := by decide

theorem Memory.wf_tail {c : Host.Cell} {mem : Memory} (h : Memory.wf (c :: mem)) : Memory.wf mem :=
  ⟨(List.pairwise_cons.mp h.1).2, fun d hd => h.2 d (List.mem_cons_of_mem c hd)⟩

/-- A cell of the memory after a write is the cell written or was there before. -/
theorem Memory.mem_write {mem : Memory} {i : Nat} {v : Byte} {c : Host.Cell} (h : c ∈ Memory.write mem i v) :
    (c = (i, v) ∧ v ≠ Memory.unlisted) ∨ c ∈ mem := by
  induction mem with
  | nil => simp only [Memory.write] at h; split at h <;> simp_all
  | cons d rest ih =>
    obtain ⟨x, u⟩ := d
    simp only [Memory.write] at h
    split at h
    · split at h <;> simp_all
    · split at h
      · split at h
        · exact .inr (List.mem_cons_of_mem _ h)
        · simp only [List.mem_cons] at h ⊢; tauto
      · simp only [List.mem_cons] at h ⊢
        rcases h with h | h
        · exact .inr (.inl h)
        · rcases ih h with h | h <;> tauto

theorem Memory.wf_write {mem : Memory} (i : Nat) (v : Byte) (h : Memory.wf mem) : Memory.wf (Memory.write mem i v) := by
  refine ⟨?_, fun c hc => ?_⟩
  · induction mem with
    | nil => simp only [Memory.write]; split <;> simp
    | cons d rest ih =>
      obtain ⟨x, u⟩ := d
      have hd := (List.pairwise_cons.mp h.1).1
      have hr := (List.pairwise_cons.mp h.1).2
      simp only [Memory.write]
      split
      next hlt =>
        split
        · exact h.1
        · refine List.pairwise_cons.mpr ⟨fun c hc => ?_, h.1⟩
          rcases List.mem_cons.mp hc with rfl | hc
          · exact hlt
          · exact Nat.lt_trans hlt (hd c hc)
      next hnlt =>
        split
        next heq =>
          subst heq
          split
          · exact hr
          · exact List.pairwise_cons.mpr ⟨hd, hr⟩
        next hne =>
          refine List.pairwise_cons.mpr ⟨fun c hc => ?_, ih (Memory.wf_tail h)⟩
          rcases Memory.mem_write hc with ⟨rfl, -⟩ | hc
          · show x < i; omega
          · exact hd c hc
  · rcases Memory.mem_write hc with ⟨rfl, hv⟩ | hc
    · exact hv
    · exact h.2 c hc

theorem Memory.wf_writeBlock {mem : Memory} (base : Nat) (vs : List Byte) (h : Memory.wf mem) :
    Memory.wf (Memory.writeBlock mem base vs) := by
  induction vs generalizing mem base with
  | nil => exact h
  | cons v vs ih => exact ih (base + 1) (Memory.wf_write base v h)

/-- An address below every listed one reads as an unlisted address does. -/
theorem Memory.read_of_lt {mem : Memory} {i : Nat} (h : ∀ c ∈ mem, i < c.1) : Memory.read mem i = Memory.unlisted := by
  induction mem with
  | nil => rfl
  | cons d rest ih =>
    obtain ⟨x, u⟩ := d
    have hx : i < x := h (x, u) List.mem_cons_self
    simp only [Memory.read, if_neg (show ¬x = i by omega)]
    exact ih fun c hc => h c (List.mem_cons_of_mem _ hc)

/-- Everything a write does, seen through the read of one byte. -/
theorem Memory.read_write {mem : Memory} (h : Memory.wf mem) (i : Nat) (v : Byte) (j : Nat) :
    Memory.read (Memory.write mem i v) j = if j = i then v else Memory.read mem j := by
  induction mem with
  | nil =>
    simp only [Memory.write]
    split <;> simp_all [Memory.read, eq_comm]
  | cons d rest ih =>
    obtain ⟨x, u⟩ := d
    have hd := (List.pairwise_cons.mp h.1).1
    have ih := ih (Memory.wf_tail h)
    have below : i ≤ x → Memory.read rest i = Memory.unlisted := fun hi =>
      Memory.read_of_lt fun c hc => Nat.lt_of_le_of_lt hi (hd c hc)
    simp only [Memory.write]
    by_cases h1 : i < x
    · rw [if_pos h1]
      have hb := below (Nat.le_of_lt h1)
      split <;> simp only [Memory.read] <;> by_cases hj : j = i
      · subst hj; simp_all; omega
      · simp [hj]
      · subst hj; simp
      · simp [hj, Ne.symm hj]
    · rw [if_neg h1]
      by_cases h2 : i = x
      · subst h2
        rw [if_pos rfl]
        have hb := below (Nat.le_refl i)
        split <;> simp only [Memory.read] <;> by_cases hj : j = i
        · subst hj; simp_all
        · simp [hj, Ne.symm hj]
        · subst hj; simp
        · simp [hj, Ne.symm hj]
      · rw [if_neg h2]
        simp only [Memory.read, ih]
        by_cases hj : j = i
        · subst hj; simp [Ne.symm h2]
        · simp [hj]

theorem Memory.read_write_same {mem : Memory} (h : Memory.wf mem) (i : Nat) (v : Byte) :
    Memory.read (Memory.write mem i v) i = v := by simp [Memory.read_write h]

theorem Memory.read_write_other {mem : Memory} (h : Memory.wf mem) {i j : Nat} (v : Byte) (hj : j ≠ i) :
    Memory.read (Memory.write mem i v) j = Memory.read mem j := by simp [Memory.read_write h, hj]

/-- Everything a block write does, seen through the read of one byte. -/
theorem Memory.read_writeBlock {mem : Memory} (h : Memory.wf mem) (base : Nat) (vs : List Byte) (j : Nat) :
    Memory.read (Memory.writeBlock mem base vs) j =
      if base ≤ j ∧ j < base + vs.length then vs.getD (j - base) 0x00 else Memory.read mem j := by
  induction vs generalizing mem base with
  | nil => simp only [Memory.writeBlock, List.length_nil, if_neg (show ¬(base ≤ j ∧ j < base + 0) by omega)]
  | cons v vs ih =>
    simp only [Memory.writeBlock, ih (Memory.wf_write base v h), Memory.read_write h, List.length_cons]
    by_cases hb : j = base
    · subst hb
      simp [show ¬(j + 1 ≤ j) by omega]
    · by_cases hr : base + 1 ≤ j ∧ j < base + 1 + vs.length
      · rw [if_pos hr, if_pos (by omega), show j - base = (j - (base + 1)) + 1 by omega]
        simp
      · rw [if_neg hr, if_neg hb, if_neg (by omega)]

/-- A cell after a block write lies in the block or was there before. -/
theorem Memory.mem_writeBlock {mem : Memory} {base : Nat} {vs : List Byte} {c : Host.Cell}
    (h : c ∈ Memory.writeBlock mem base vs) : (base ≤ c.1 ∧ c.1 < base + vs.length) ∨ c ∈ mem := by
  induction vs generalizing mem base with
  | nil => exact .inr h
  | cons v vs ih =>
    simp only [List.length_cons]
    rcases ih h with h | h
    · left; omega
    · rcases Memory.mem_write h with ⟨rfl, -⟩ | h
      · left; simp
      · exact .inr h

end Sys2Proof.Machine
end

