-- ==== Sys2Proof/Laws/State.lean ====
section
/-!
SUPPORT. One lemma per field per update of the state, each true by definition, so that no proof unfolds a record update.
-/

namespace Sys2Proof.Machine

section
variable (s : State) (op : Byte)
@[simp] theorem State.latch_cmd : (s.latch op).cmd = op := rfl
@[simp] theorem State.latch_fv : (s.latch op).fv = s.fv := rfl
@[simp] theorem State.latch_sv : (s.latch op).sv = s.sv := rfl
@[simp] theorem State.latch_err : (s.latch op).err = s.err := rfl
@[simp] theorem State.latch_errcode : (s.latch op).errcode = s.errcode := rfl
@[simp] theorem State.latch_poly : (s.latch op).poly = s.poly := rfl
@[simp] theorem State.latch_k : (s.latch op).k = s.k := rfl
@[simp] theorem State.latch_m : (s.latch op).m = s.m := rfl
@[simp] theorem State.latch_scheme : (s.latch op).scheme = s.scheme := rfl
@[simp] theorem State.latch_dlen : (s.latch op).dlen = s.dlen := rfl
@[simp] theorem State.latch_nsh : (s.latch op).nsh = s.nsh := rfl
@[simp] theorem State.latch_a : (s.latch op).a = s.a := rfl
@[simp] theorem State.latch_b : (s.latch op).b = s.b := rfl
@[simp] theorem State.latch_el : (s.latch op).el = s.el := rfl
@[simp] theorem State.latch_eh : (s.latch op).eh = s.eh := rfl
@[simp] theorem State.latch_r : (s.latch op).r = s.r := rfl
@[simp] theorem State.latch_mem : (s.latch op).mem = s.mem := rfl
@[simp] theorem State.latch_tables : (s.latch op).tables = s.tables := rfl
@[simp] theorem State.latch_freeCount : (s.latch op).freeCount = s.freeCount := rfl
@[simp] theorem State.latch_pending : (s.latch op).pending = s.pending := rfl
@[simp] theorem State.latch_hostReads : (s.latch op).hostReads = s.hostReads := rfl
end

section
variable (s : State)
@[simp] theorem State.done_cmd : (s.done).cmd = s.cmd := rfl
@[simp] theorem State.done_fv : (s.done).fv = s.fv := rfl
@[simp] theorem State.done_sv : (s.done).sv = s.sv := rfl
@[simp] theorem State.done_err : (s.done).err = false := rfl
@[simp] theorem State.done_errcode : (s.done).errcode = 0x00 := rfl
@[simp] theorem State.done_poly : (s.done).poly = s.poly := rfl
@[simp] theorem State.done_k : (s.done).k = s.k := rfl
@[simp] theorem State.done_m : (s.done).m = s.m := rfl
@[simp] theorem State.done_scheme : (s.done).scheme = s.scheme := rfl
@[simp] theorem State.done_dlen : (s.done).dlen = s.dlen := rfl
@[simp] theorem State.done_nsh : (s.done).nsh = s.nsh := rfl
@[simp] theorem State.done_a : (s.done).a = s.a := rfl
@[simp] theorem State.done_b : (s.done).b = s.b := rfl
@[simp] theorem State.done_el : (s.done).el = s.el := rfl
@[simp] theorem State.done_eh : (s.done).eh = s.eh := rfl
@[simp] theorem State.done_r : (s.done).r = s.r := rfl
@[simp] theorem State.done_mem : (s.done).mem = s.mem := rfl
@[simp] theorem State.done_tables : (s.done).tables = s.tables := rfl
@[simp] theorem State.done_freeCount : (s.done).freeCount = s.freeCount := rfl
@[simp] theorem State.done_pending : (s.done).pending = s.pending := rfl
@[simp] theorem State.done_hostReads : (s.done).hostReads = s.hostReads := rfl
end

section
variable (s : State) (e : ErrorKind)
@[simp] theorem State.raise_cmd : (s.raise e).cmd = s.cmd := rfl
@[simp] theorem State.raise_fv : (s.raise e).fv = s.fv := rfl
@[simp] theorem State.raise_sv : (s.raise e).sv = s.sv := rfl
@[simp] theorem State.raise_err : (s.raise e).err = true := rfl
@[simp] theorem State.raise_errcode : (s.raise e).errcode = e.code := rfl
@[simp] theorem State.raise_poly : (s.raise e).poly = s.poly := rfl
@[simp] theorem State.raise_k : (s.raise e).k = s.k := rfl
@[simp] theorem State.raise_m : (s.raise e).m = s.m := rfl
@[simp] theorem State.raise_scheme : (s.raise e).scheme = s.scheme := rfl
@[simp] theorem State.raise_dlen : (s.raise e).dlen = s.dlen := rfl
@[simp] theorem State.raise_nsh : (s.raise e).nsh = s.nsh := rfl
@[simp] theorem State.raise_a : (s.raise e).a = s.a := rfl
@[simp] theorem State.raise_b : (s.raise e).b = s.b := rfl
@[simp] theorem State.raise_el : (s.raise e).el = s.el := rfl
@[simp] theorem State.raise_eh : (s.raise e).eh = s.eh := rfl
@[simp] theorem State.raise_r : (s.raise e).r = s.r := rfl
@[simp] theorem State.raise_mem : (s.raise e).mem = s.mem := rfl
@[simp] theorem State.raise_tables : (s.raise e).tables = s.tables := rfl
@[simp] theorem State.raise_freeCount : (s.raise e).freeCount = s.freeCount := rfl
@[simp] theorem State.raise_pending : (s.raise e).pending = s.pending := rfl
@[simp] theorem State.raise_hostReads : (s.raise e).hostReads = s.hostReads := rfl
end

section
variable (s : State) (v : Byte)
@[simp] theorem State.setR_cmd : (s.setR v).cmd = s.cmd := rfl
@[simp] theorem State.setR_fv : (s.setR v).fv = s.fv := rfl
@[simp] theorem State.setR_sv : (s.setR v).sv = s.sv := rfl
@[simp] theorem State.setR_err : (s.setR v).err = s.err := rfl
@[simp] theorem State.setR_errcode : (s.setR v).errcode = s.errcode := rfl
@[simp] theorem State.setR_poly : (s.setR v).poly = s.poly := rfl
@[simp] theorem State.setR_k : (s.setR v).k = s.k := rfl
@[simp] theorem State.setR_m : (s.setR v).m = s.m := rfl
@[simp] theorem State.setR_scheme : (s.setR v).scheme = s.scheme := rfl
@[simp] theorem State.setR_dlen : (s.setR v).dlen = s.dlen := rfl
@[simp] theorem State.setR_nsh : (s.setR v).nsh = s.nsh := rfl
@[simp] theorem State.setR_a : (s.setR v).a = s.a := rfl
@[simp] theorem State.setR_b : (s.setR v).b = s.b := rfl
@[simp] theorem State.setR_el : (s.setR v).el = s.el := rfl
@[simp] theorem State.setR_eh : (s.setR v).eh = s.eh := rfl
@[simp] theorem State.setR_r : (s.setR v).r = v := rfl
@[simp] theorem State.setR_mem : (s.setR v).mem = s.mem := rfl
@[simp] theorem State.setR_tables : (s.setR v).tables = s.tables := rfl
@[simp] theorem State.setR_freeCount : (s.setR v).freeCount = s.freeCount := rfl
@[simp] theorem State.setR_pending : (s.setR v).pending = s.pending := rfl
@[simp] theorem State.setR_hostReads : (s.setR v).hostReads = s.hostReads := rfl
end

section
variable (s : State) (x : Nat) (v : Byte)
@[simp] theorem State.store_cmd : (s.store x v).cmd = s.cmd := rfl
@[simp] theorem State.store_fv : (s.store x v).fv = s.fv := rfl
@[simp] theorem State.store_sv : (s.store x v).sv = s.sv := rfl
@[simp] theorem State.store_err : (s.store x v).err = s.err := rfl
@[simp] theorem State.store_errcode : (s.store x v).errcode = s.errcode := rfl
@[simp] theorem State.store_poly : (s.store x v).poly = s.poly := rfl
@[simp] theorem State.store_k : (s.store x v).k = s.k := rfl
@[simp] theorem State.store_m : (s.store x v).m = s.m := rfl
@[simp] theorem State.store_scheme : (s.store x v).scheme = s.scheme := rfl
@[simp] theorem State.store_dlen : (s.store x v).dlen = s.dlen := rfl
@[simp] theorem State.store_nsh : (s.store x v).nsh = s.nsh := rfl
@[simp] theorem State.store_a : (s.store x v).a = s.a := rfl
@[simp] theorem State.store_b : (s.store x v).b = s.b := rfl
@[simp] theorem State.store_el : (s.store x v).el = s.el := rfl
@[simp] theorem State.store_eh : (s.store x v).eh = s.eh := rfl
@[simp] theorem State.store_r : (s.store x v).r = s.r := rfl
@[simp] theorem State.store_mem : (s.store x v).mem = Memory.write s.mem x v := rfl
@[simp] theorem State.store_tables : (s.store x v).tables = s.tables := rfl
@[simp] theorem State.store_freeCount : (s.store x v).freeCount = s.freeCount := rfl
@[simp] theorem State.store_pending : (s.store x v).pending = s.pending := rfl
@[simp] theorem State.store_hostReads : (s.store x v).hostReads = s.hostReads := rfl
end

section
variable (s : State) (x : Nat) (vs : List Byte)
@[simp] theorem State.storeBlock_cmd : (s.storeBlock x vs).cmd = s.cmd := rfl
@[simp] theorem State.storeBlock_fv : (s.storeBlock x vs).fv = s.fv := rfl
@[simp] theorem State.storeBlock_sv : (s.storeBlock x vs).sv = s.sv := rfl
@[simp] theorem State.storeBlock_err : (s.storeBlock x vs).err = s.err := rfl
@[simp] theorem State.storeBlock_errcode : (s.storeBlock x vs).errcode = s.errcode := rfl
@[simp] theorem State.storeBlock_poly : (s.storeBlock x vs).poly = s.poly := rfl
@[simp] theorem State.storeBlock_k : (s.storeBlock x vs).k = s.k := rfl
@[simp] theorem State.storeBlock_m : (s.storeBlock x vs).m = s.m := rfl
@[simp] theorem State.storeBlock_scheme : (s.storeBlock x vs).scheme = s.scheme := rfl
@[simp] theorem State.storeBlock_dlen : (s.storeBlock x vs).dlen = s.dlen := rfl
@[simp] theorem State.storeBlock_nsh : (s.storeBlock x vs).nsh = s.nsh := rfl
@[simp] theorem State.storeBlock_a : (s.storeBlock x vs).a = s.a := rfl
@[simp] theorem State.storeBlock_b : (s.storeBlock x vs).b = s.b := rfl
@[simp] theorem State.storeBlock_el : (s.storeBlock x vs).el = s.el := rfl
@[simp] theorem State.storeBlock_eh : (s.storeBlock x vs).eh = s.eh := rfl
@[simp] theorem State.storeBlock_r : (s.storeBlock x vs).r = s.r := rfl
@[simp] theorem State.storeBlock_mem : (s.storeBlock x vs).mem = Memory.writeBlock s.mem x vs := rfl
@[simp] theorem State.storeBlock_tables : (s.storeBlock x vs).tables = s.tables := rfl
@[simp] theorem State.storeBlock_freeCount : (s.storeBlock x vs).freeCount = s.freeCount := rfl
@[simp] theorem State.storeBlock_pending : (s.storeBlock x vs).pending = s.pending := rfl
@[simp] theorem State.storeBlock_hostReads : (s.storeBlock x vs).hostReads = s.hostReads := rfl
end

section
variable (s : State) (v : Byte)
@[simp] theorem State.returnByte_cmd : (s.returnByte v).cmd = s.cmd := rfl
@[simp] theorem State.returnByte_fv : (s.returnByte v).fv = s.fv := rfl
@[simp] theorem State.returnByte_sv : (s.returnByte v).sv = s.sv := rfl
@[simp] theorem State.returnByte_err : (s.returnByte v).err = s.err := rfl
@[simp] theorem State.returnByte_errcode : (s.returnByte v).errcode = s.errcode := rfl
@[simp] theorem State.returnByte_poly : (s.returnByte v).poly = s.poly := rfl
@[simp] theorem State.returnByte_k : (s.returnByte v).k = s.k := rfl
@[simp] theorem State.returnByte_m : (s.returnByte v).m = s.m := rfl
@[simp] theorem State.returnByte_scheme : (s.returnByte v).scheme = s.scheme := rfl
@[simp] theorem State.returnByte_dlen : (s.returnByte v).dlen = s.dlen := rfl
@[simp] theorem State.returnByte_nsh : (s.returnByte v).nsh = s.nsh := rfl
@[simp] theorem State.returnByte_a : (s.returnByte v).a = s.a := rfl
@[simp] theorem State.returnByte_b : (s.returnByte v).b = s.b := rfl
@[simp] theorem State.returnByte_el : (s.returnByte v).el = s.el := rfl
@[simp] theorem State.returnByte_eh : (s.returnByte v).eh = s.eh := rfl
@[simp] theorem State.returnByte_r : (s.returnByte v).r = s.r := rfl
@[simp] theorem State.returnByte_mem : (s.returnByte v).mem = s.mem := rfl
@[simp] theorem State.returnByte_tables : (s.returnByte v).tables = s.tables := rfl
@[simp] theorem State.returnByte_freeCount : (s.returnByte v).freeCount = s.freeCount := rfl
@[simp] theorem State.returnByte_pending : (s.returnByte v).pending = s.pending := rfl
@[simp] theorem State.returnByte_hostReads : (s.returnByte v).hostReads = s.hostReads ++ [v] := rfl
end

section
variable (s : State) (rest : List HostEvent)
@[simp] theorem State.advance_cmd : (s.advance rest).cmd = s.cmd := rfl
@[simp] theorem State.advance_fv : (s.advance rest).fv = s.fv := rfl
@[simp] theorem State.advance_sv : (s.advance rest).sv = s.sv := rfl
@[simp] theorem State.advance_err : (s.advance rest).err = s.err := rfl
@[simp] theorem State.advance_errcode : (s.advance rest).errcode = s.errcode := rfl
@[simp] theorem State.advance_poly : (s.advance rest).poly = s.poly := rfl
@[simp] theorem State.advance_k : (s.advance rest).k = s.k := rfl
@[simp] theorem State.advance_m : (s.advance rest).m = s.m := rfl
@[simp] theorem State.advance_scheme : (s.advance rest).scheme = s.scheme := rfl
@[simp] theorem State.advance_dlen : (s.advance rest).dlen = s.dlen := rfl
@[simp] theorem State.advance_nsh : (s.advance rest).nsh = s.nsh := rfl
@[simp] theorem State.advance_a : (s.advance rest).a = s.a := rfl
@[simp] theorem State.advance_b : (s.advance rest).b = s.b := rfl
@[simp] theorem State.advance_el : (s.advance rest).el = s.el := rfl
@[simp] theorem State.advance_eh : (s.advance rest).eh = s.eh := rfl
@[simp] theorem State.advance_r : (s.advance rest).r = s.r := rfl
@[simp] theorem State.advance_mem : (s.advance rest).mem = s.mem := rfl
@[simp] theorem State.advance_tables : (s.advance rest).tables = s.tables := rfl
@[simp] theorem State.advance_freeCount : (s.advance rest).freeCount = s.freeCount := rfl
@[simp] theorem State.advance_pending : (s.advance rest).pending = rest := rfl
@[simp] theorem State.advance_hostReads : (s.advance rest).hostReads = s.hostReads := rfl
end

section
variable (s : State)
@[simp] theorem State.invalidateScheme_cmd : (s.invalidateScheme).cmd = s.cmd := rfl
@[simp] theorem State.invalidateScheme_fv : (s.invalidateScheme).fv = s.fv := rfl
@[simp] theorem State.invalidateScheme_sv : (s.invalidateScheme).sv = false := rfl
@[simp] theorem State.invalidateScheme_err : (s.invalidateScheme).err = s.err := rfl
@[simp] theorem State.invalidateScheme_errcode : (s.invalidateScheme).errcode = s.errcode := rfl
@[simp] theorem State.invalidateScheme_poly : (s.invalidateScheme).poly = s.poly := rfl
@[simp] theorem State.invalidateScheme_k : (s.invalidateScheme).k = s.k := rfl
@[simp] theorem State.invalidateScheme_m : (s.invalidateScheme).m = s.m := rfl
@[simp] theorem State.invalidateScheme_scheme : (s.invalidateScheme).scheme = s.scheme := rfl
@[simp] theorem State.invalidateScheme_dlen : (s.invalidateScheme).dlen = s.dlen := rfl
@[simp] theorem State.invalidateScheme_nsh : (s.invalidateScheme).nsh = s.nsh := rfl
@[simp] theorem State.invalidateScheme_a : (s.invalidateScheme).a = s.a := rfl
@[simp] theorem State.invalidateScheme_b : (s.invalidateScheme).b = s.b := rfl
@[simp] theorem State.invalidateScheme_el : (s.invalidateScheme).el = s.el := rfl
@[simp] theorem State.invalidateScheme_eh : (s.invalidateScheme).eh = s.eh := rfl
@[simp] theorem State.invalidateScheme_r : (s.invalidateScheme).r = s.r := rfl
@[simp] theorem State.invalidateScheme_mem : (s.invalidateScheme).mem = s.mem := rfl
@[simp] theorem State.invalidateScheme_tables : (s.invalidateScheme).tables = s.tables := rfl
@[simp] theorem State.invalidateScheme_freeCount : (s.invalidateScheme).freeCount = s.freeCount := rfl
@[simp] theorem State.invalidateScheme_pending : (s.invalidateScheme).pending = s.pending := rfl
@[simp] theorem State.invalidateScheme_hostReads : (s.invalidateScheme).hostReads = s.hostReads := rfl
end

section
variable (s : State)
@[simp] theorem State.invalidateField_cmd : (s.invalidateField).cmd = s.cmd := rfl
@[simp] theorem State.invalidateField_fv : (s.invalidateField).fv = false := rfl
@[simp] theorem State.invalidateField_sv : (s.invalidateField).sv = false := rfl
@[simp] theorem State.invalidateField_err : (s.invalidateField).err = s.err := rfl
@[simp] theorem State.invalidateField_errcode : (s.invalidateField).errcode = s.errcode := rfl
@[simp] theorem State.invalidateField_poly : (s.invalidateField).poly = s.poly := rfl
@[simp] theorem State.invalidateField_k : (s.invalidateField).k = s.k := rfl
@[simp] theorem State.invalidateField_m : (s.invalidateField).m = s.m := rfl
@[simp] theorem State.invalidateField_scheme : (s.invalidateField).scheme = s.scheme := rfl
@[simp] theorem State.invalidateField_dlen : (s.invalidateField).dlen = s.dlen := rfl
@[simp] theorem State.invalidateField_nsh : (s.invalidateField).nsh = s.nsh := rfl
@[simp] theorem State.invalidateField_a : (s.invalidateField).a = s.a := rfl
@[simp] theorem State.invalidateField_b : (s.invalidateField).b = s.b := rfl
@[simp] theorem State.invalidateField_el : (s.invalidateField).el = s.el := rfl
@[simp] theorem State.invalidateField_eh : (s.invalidateField).eh = s.eh := rfl
@[simp] theorem State.invalidateField_r : (s.invalidateField).r = s.r := rfl
@[simp] theorem State.invalidateField_mem : (s.invalidateField).mem = s.mem := rfl
@[simp] theorem State.invalidateField_tables : (s.invalidateField).tables = s.tables := rfl
@[simp] theorem State.invalidateField_freeCount : (s.invalidateField).freeCount = s.freeCount := rfl
@[simp] theorem State.invalidateField_pending : (s.invalidateField).pending = s.pending := rfl
@[simp] theorem State.invalidateField_hostReads : (s.invalidateField).hostReads = s.hostReads := rfl
end

section
variable (s : State)
@[simp] theorem State.validateScheme_cmd : (s.validateScheme).cmd = s.cmd := rfl
@[simp] theorem State.validateScheme_fv : (s.validateScheme).fv = s.fv := rfl
@[simp] theorem State.validateScheme_sv : (s.validateScheme).sv = true := rfl
@[simp] theorem State.validateScheme_err : (s.validateScheme).err = s.err := rfl
@[simp] theorem State.validateScheme_errcode : (s.validateScheme).errcode = s.errcode := rfl
@[simp] theorem State.validateScheme_poly : (s.validateScheme).poly = s.poly := rfl
@[simp] theorem State.validateScheme_k : (s.validateScheme).k = s.k := rfl
@[simp] theorem State.validateScheme_m : (s.validateScheme).m = s.m := rfl
@[simp] theorem State.validateScheme_scheme : (s.validateScheme).scheme = s.scheme := rfl
@[simp] theorem State.validateScheme_dlen : (s.validateScheme).dlen = s.dlen := rfl
@[simp] theorem State.validateScheme_nsh : (s.validateScheme).nsh = s.nsh := rfl
@[simp] theorem State.validateScheme_a : (s.validateScheme).a = s.a := rfl
@[simp] theorem State.validateScheme_b : (s.validateScheme).b = s.b := rfl
@[simp] theorem State.validateScheme_el : (s.validateScheme).el = s.el := rfl
@[simp] theorem State.validateScheme_eh : (s.validateScheme).eh = s.eh := rfl
@[simp] theorem State.validateScheme_r : (s.validateScheme).r = s.r := rfl
@[simp] theorem State.validateScheme_mem : (s.validateScheme).mem = s.mem := rfl
@[simp] theorem State.validateScheme_tables : (s.validateScheme).tables = s.tables := rfl
@[simp] theorem State.validateScheme_freeCount : (s.validateScheme).freeCount = s.freeCount := rfl
@[simp] theorem State.validateScheme_pending : (s.validateScheme).pending = s.pending := rfl
@[simp] theorem State.validateScheme_hostReads : (s.validateScheme).hostReads = s.hostReads := rfl
end

section
variable (s : State)
@[simp] theorem State.acceptField_cmd : (s.acceptField).cmd = s.cmd := rfl
@[simp] theorem State.acceptField_fv : (s.acceptField).fv = true := rfl
@[simp] theorem State.acceptField_sv : (s.acceptField).sv = s.sv := rfl
@[simp] theorem State.acceptField_err : (s.acceptField).err = s.err := rfl
@[simp] theorem State.acceptField_errcode : (s.acceptField).errcode = s.errcode := rfl
@[simp] theorem State.acceptField_poly : (s.acceptField).poly = s.poly := rfl
@[simp] theorem State.acceptField_k : (s.acceptField).k = s.k := rfl
@[simp] theorem State.acceptField_m : (s.acceptField).m = s.m := rfl
@[simp] theorem State.acceptField_scheme : (s.acceptField).scheme = s.scheme := rfl
@[simp] theorem State.acceptField_dlen : (s.acceptField).dlen = s.dlen := rfl
@[simp] theorem State.acceptField_nsh : (s.acceptField).nsh = s.nsh := rfl
@[simp] theorem State.acceptField_a : (s.acceptField).a = s.a := rfl
@[simp] theorem State.acceptField_b : (s.acceptField).b = s.b := rfl
@[simp] theorem State.acceptField_el : (s.acceptField).el = s.el := rfl
@[simp] theorem State.acceptField_eh : (s.acceptField).eh = s.eh := rfl
@[simp] theorem State.acceptField_r : (s.acceptField).r = s.r := rfl
@[simp] theorem State.acceptField_mem : (s.acceptField).mem = s.mem := rfl
@[simp] theorem State.acceptField_tables : (s.acceptField).tables = genTables s.poly := rfl
@[simp] theorem State.acceptField_freeCount : (s.acceptField).freeCount = s.freeCount := rfl
@[simp] theorem State.acceptField_pending : (s.acceptField).pending = s.pending := rfl
@[simp] theorem State.acceptField_hostReads : (s.acceptField).hostReads = s.hostReads := rfl
end

section
variable (s : State)
@[simp] theorem State.rejectField_cmd : (s.rejectField).cmd = s.cmd := rfl
@[simp] theorem State.rejectField_fv : (s.rejectField).fv = false := rfl
@[simp] theorem State.rejectField_sv : (s.rejectField).sv = s.sv := rfl
@[simp] theorem State.rejectField_err : (s.rejectField).err = s.err := rfl
@[simp] theorem State.rejectField_errcode : (s.rejectField).errcode = s.errcode := rfl
@[simp] theorem State.rejectField_poly : (s.rejectField).poly = s.poly := rfl
@[simp] theorem State.rejectField_k : (s.rejectField).k = s.k := rfl
@[simp] theorem State.rejectField_m : (s.rejectField).m = s.m := rfl
@[simp] theorem State.rejectField_scheme : (s.rejectField).scheme = s.scheme := rfl
@[simp] theorem State.rejectField_dlen : (s.rejectField).dlen = s.dlen := rfl
@[simp] theorem State.rejectField_nsh : (s.rejectField).nsh = s.nsh := rfl
@[simp] theorem State.rejectField_a : (s.rejectField).a = s.a := rfl
@[simp] theorem State.rejectField_b : (s.rejectField).b = s.b := rfl
@[simp] theorem State.rejectField_el : (s.rejectField).el = s.el := rfl
@[simp] theorem State.rejectField_eh : (s.rejectField).eh = s.eh := rfl
@[simp] theorem State.rejectField_r : (s.rejectField).r = s.r := rfl
@[simp] theorem State.rejectField_mem : (s.rejectField).mem = s.mem := rfl
@[simp] theorem State.rejectField_tables : (s.rejectField).tables = freeTables s.freeCount := rfl
@[simp] theorem State.rejectField_freeCount : (s.rejectField).freeCount = s.freeCount + 1 := rfl
@[simp] theorem State.rejectField_pending : (s.rejectField).pending = s.pending := rfl
@[simp] theorem State.rejectField_hostReads : (s.rejectField).hostReads = s.hostReads := rfl
end

/-! Latching the opcode changes no operand of a command. -/
section
variable (s : State) (op : Byte)
@[simp] theorem State.latch_data : (s.latch op).data = s.data := rfl
@[simp] theorem State.latch_cw : (s.latch op).cw = s.cw := rfl
@[simp] theorem State.latch_shpos : (s.latch op).shpos = s.shpos := rfl
@[simp] theorem State.latch_shval : (s.latch op).shval = s.shval := rfl
@[simp] theorem State.latch_out : (s.latch op).out = s.out := rfl
@[simp] theorem State.latch_xpt : (s.latch op).xpt = s.xpt := rfl
@[simp] theorem State.latch_kNat : (s.latch op).kNat = s.kNat := rfl
@[simp] theorem State.latch_codeLength : (s.latch op).codeLength = s.codeLength := rfl
@[simp] theorem State.latch_exponent : (s.latch op).exponent = s.exponent := rfl
@[simp] theorem State.latch_legalConfiguration : (s.latch op).legalConfiguration = s.legalConfiguration := rfl
@[simp] theorem State.latch_codeword : (s.latch op).codeword = s.codeword := rfl
@[simp] theorem State.latch_someShardOutOfRange : (s.latch op).someShardOutOfRange = s.someShardOutOfRange := rfl
@[simp] theorem State.latch_someShardDuplicated : (s.latch op).someShardDuplicated = s.someShardDuplicated := rfl
@[simp] theorem State.latch_recovered : (s.latch op).recovered = s.recovered := rfl
end

end Sys2Proof.Machine
end

