-- ==== Sys2Proof/Laws/Commands.lean ====
section
/-!
SUPPORT. One lemma for each shared operation and each command with more than one outcome, saying once everything it can
do; proofs cite these instead of unfolding the meanings.
-/

namespace Sys2Proof.Machine

/-! ## The host's events -/

@[simp] theorem fetch_idle {s : State} (h : s.pending = []) : fetch s = .idle := by simp [fetch, h]

@[simp] theorem fetch_reset {s : State} {rest : List HostEvent} (h : s.pending = .reset :: rest) :
    fetch s = .reset (s.advance rest) := by simp [fetch, h]

theorem fetch_instr {s : State} {w : Txn} {rest : List HostEvent} {i : Instr}
    (h : s.pending = .transaction w :: rest) (hd : decode w = .ok i) : fetch s = .instr i (s.advance rest) := by
  simp [fetch, h, hd]

theorem fetch_malformed {s : State} {w : Txn} {rest : List HostEvent} {e : DecodeError}
    (h : s.pending = .transaction w :: rest) (hd : decode w = .error e) : fetch s = .malformed w := by
  simp [fetch, h, hd]

/-- Everything a fetch can give. -/
theorem fetch_cases (s : State) :
    (s.pending = [] ∧ fetch s = .idle) ∨
    (∃ rest, s.pending = .reset :: rest ∧ fetch s = .reset (s.advance rest)) ∨
    (∃ w rest i, s.pending = .transaction w :: rest ∧ decode w = .ok i ∧ fetch s = .instr i (s.advance rest)) ∨
    (∃ w rest e, s.pending = .transaction w :: rest ∧ decode w = .error e ∧ fetch s = .malformed w) := by
  match h : s.pending with
  | [] => exact .inl ⟨rfl, fetch_idle h⟩
  | .reset :: rest => exact .inr (.inl ⟨rest, rfl, fetch_reset h⟩)
  | .transaction w :: rest =>
    match hd : decode w with
    | .ok i => exact .inr (.inr (.inl ⟨w, rest, i, rfl, hd, fetch_instr h hd⟩))
    | .error e => exact .inr (.inr (.inr ⟨w, rest, e, rfl, hd, fetch_malformed h hd⟩))

/-! ## The scalar commands -/

/-- Everything a scalar command can do (40_field_arithmetic.md R80). -/
theorem scalarCommand_cases (op : Byte) (value : Except ErrorKind Byte) (s : State) :
    (s.fv = false ∧ scalarCommand op value s = (s.latch op).raise .notConfigured) ∨
    (s.fv = true ∧ ∃ v, value = .ok v ∧ scalarCommand op value s = ((s.latch op).setR v).done) ∨
    (s.fv = true ∧ ∃ e, value = .error e ∧ scalarCommand op value s = (s.latch op).raise e) := by
  unfold scalarCommand
  cases hf : s.fv
  · simp
  · cases value <;> simp

theorem scalarCommand_ok {op : Byte} {s : State} (h : s.fv = true) (v : Byte) :
    scalarCommand op (.ok v) s = ((s.latch op).setR v).done := by simp [scalarCommand, h]

theorem scalarCommand_error {op : Byte} {s : State} (h : s.fv = true) (e : ErrorKind) :
    scalarCommand op (.error e) s = (s.latch op).raise e := by simp [scalarCommand, h]

theorem scalarCommand_notConfigured {op : Byte} {s : State} (h : s.fv = false) (value : Except ErrorKind Byte) :
    scalarCommand op value s = (s.latch op).raise .notConfigured := by simp [scalarCommand, h]

/-! ## The commands on the field, the scheme and the blocks -/

/-- Everything `FIELD_INIT` can do (41_field_construction.md R110). -/
theorem execFieldInit_eq (s : State) :
    execFieldInit s = if coversGroup (genExp s.poly) then .next ((s.latch 0x01).invalidateScheme.acceptField.done)
      else .next ((s.latch 0x01).invalidateScheme.rejectField.raise .nonPrimitivePolynomial) := rfl

theorem fieldInit_accepts {s : State} (h : coversGroup (genExp s.poly) = true) :
    exec .fieldInit s = .next ((s.latch 0x01).invalidateScheme.acceptField.done) := by
  rw [exec, execFieldInit_eq, if_pos h]

theorem fieldInit_rejects {s : State} (h : coversGroup (genExp s.poly) = false) :
    exec .fieldInit s = .next ((s.latch 0x01).invalidateScheme.rejectField.raise .nonPrimitivePolynomial) := by
  rw [exec, execFieldInit_eq, if_neg (by simp [h])]

/-- Everything `SCHEME_INIT` can do (43_evaluation_scheme.md R130). -/
theorem execSchemeInit_eq (s : State) :
    execSchemeInit s =
      if s.fv = false then .next ((s.latch 0x02).raise .notConfigured)
      else if s.legalConfiguration = false then
        .next ((s.latch 0x02).invalidateScheme.raise .invalidConfiguration)
      else .next (((s.latch 0x02).storeBlock xptBase
        (schemePoints s.tables s.scheme s.codeLength)).validateScheme.done) := by
  simp [execSchemeInit]

/-- Everything `ENCODE` can do (42_encoder.md R120). -/
theorem execEncode_eq (s : State) :
    execEncode s =
      if s.fv = false ∨ s.sv = false then .next ((s.latch 0x03).raise .notConfigured)
      else if s.dlen ≠ s.k then .next ((s.latch 0x03).raise .invalidShardCount)
      else .next (((s.latch 0x03).storeBlock cwBase s.codeword).done) := by
  cases hf : s.fv <;> cases hs : s.sv <;> by_cases hd : s.dlen = s.k <;> simp [execEncode, hf, hs, hd]

/-- Everything `RECONSTRUCT` can do (44_reconstructor.md R140). -/
theorem execReconstruct_eq (s : State) :
    execReconstruct s =
      if s.fv = false ∨ s.sv = false then .next ((s.latch 0x04).raise .notConfigured)
      else if s.nsh.toNat < s.kNat then .next ((s.latch 0x04).raise .invalidShardCount)
      else if s.someShardOutOfRange = true then .next ((s.latch 0x04).raise .positionOutOfRange)
      else if s.someShardDuplicated = true then .next ((s.latch 0x04).raise .corruptedEvaluationPoints)
      else .next (((s.latch 0x04).storeBlock outBase s.recovered).done) := by
  cases hf : s.fv <;> cases hs : s.sv <;> by_cases hn : s.nsh.toNat < s.kNat <;> cases ho : s.someShardOutOfRange <;>
    cases hd : s.someShardDuplicated <;> simp [execReconstruct, hf, hs, hn, ho, hd]

/-- A write to `CMD` executes the command its byte names (20_memory.md R46). -/
theorem executeCommand_eq (v : Byte) (s : State) : executeCommand v s = exec (decodeCommand v) s := by
  unfold executeCommand decodeCommand
  split <;> simp_all [exec]

/-- The range pass of `RECONSTRUCT` (44_reconstructor.md R142). -/
theorem someShardOutOfRange_iff (s : State) :
    s.someShardOutOfRange = true ↔ ∃ j < s.kNat, s.codeLength ≤ (s.shpos j).toNat := by
  simp [State.someShardOutOfRange]

/-- The duplicate pass of `RECONSTRUCT` (44_reconstructor.md R142). -/
theorem someShardDuplicated_iff (s : State) :
    s.someShardDuplicated = true ↔ ∃ j l, j < l ∧ l < s.kNat ∧ s.shpos j = s.shpos l := by
  simp only [State.someShardDuplicated, List.any_eq_true, List.mem_range, beq_iff_eq]
  constructor
  · rintro ⟨l, hl, j, hj, h⟩; exact ⟨j, l, hj, hl, h⟩
  · rintro ⟨j, l, hj, hl, h⟩; exact ⟨l, hl, j, hj, h⟩

/-- The legal configurations (43_evaluation_scheme.md R132). -/
theorem legalConfiguration_iff (s : State) :
    s.legalConfiguration = true ↔
      1 ≤ s.k.toNat ∧ s.k.toNat + s.m.toNat ≤ 255 ∧ (s.scheme = 0x00 ∨ s.scheme = 0x01) := by
  unfold State.legalConfiguration
  simp only [Bool.and_eq_true, decide_eq_true_iff, and_assoc]
  rfl

/-! ## Local lists and interpolation -/

@[simp] theorem firstEntries_size (n : Nat) (buffer : Nat → Byte) : (firstEntries n buffer).size = n := by
  simp [firstEntries]

theorem entry_firstEntries {n i : Nat} (buffer : Nat → Byte) (h : i < n) :
    entry (firstEntries n buffer) i = buffer i := by
  simp [entry, firstEntries, Array.getD, h]

theorem foldl_congr_range {α : Type} {n : Nat} {f g : α → Nat → α} (h : ∀ a, ∀ i < n, f a i = g a i) (a : α) :
    (List.range n).foldl f a = (List.range n).foldl g a :=
  List.foldl_ext f g a fun b i hi => h b i (List.mem_range.mp hi)

/-- `lagrange` depends on its first n points and values only. -/
theorem lagrange_congr {T : Tables} {X X' V V' : Nat → Byte} {n : Nat} (x : Byte) (hX : ∀ l < n, X l = X' l)
    (hV : ∀ l < n, V l = V' l) : lagrange T X V n x = lagrange T X' V' n x := by
  refine foldl_congr_range (fun acc j hj => ?_) _
  unfold lagrangeTerm
  rw [hV j hj]
  congr 1
  refine foldl_congr_range (fun t l hl => ?_) _
  rw [hX j hj, hX l hl]

/-- The codeword in terms of the buffers (42_encoder.md R120 steps 3 and 4). -/
theorem codeword_eq (s : State) :
    s.codeword = (List.range s.kNat).map s.data ++
      (List.range s.m.toNat).map fun i => lagrange s.tables s.xpt s.data s.kNat (s.xpt (s.kNat + i)) := by
  simp only [State.codeword]
  congr 1
  refine List.map_congr_left fun i hi => ?_
  have hi := List.mem_range.mp hi
  have hlen : s.codeLength = s.kNat + s.m.toNat := rfl
  rw [entry_firstEntries _ (by omega)]
  exact lagrange_congr _ (fun l hl => entry_firstEntries _ (by omega)) fun l hl => entry_firstEntries _ hl

/-- The recovered symbols in terms of the buffers (44_reconstructor.md R143). -/
theorem recovered_eq (s : State) :
    s.recovered = (List.range s.kNat).map fun i =>
      lagrange s.tables (fun j => s.xpt (s.shpos j).toNat) s.shval s.kNat (s.xpt i) := by
  simp only [State.recovered]
  exact List.map_congr_left fun i _ =>
    lagrange_congr _ (fun l hl => entry_firstEntries _ hl) fun l hl => entry_firstEntries _ hl

@[simp] theorem codeword_length (s : State) : s.codeword.length = s.codeLength := by
  simp [codeword_eq, State.codeLength, State.kNat]

@[simp] theorem recovered_length (s : State) : s.recovered.length = s.kNat := by simp [recovered_eq]

@[simp] theorem geometricPoints_length (T : Tables) (n : Nat) (x : Byte) : (geometricPoints T n x).length = n := by
  induction n generalizing x with
  | zero => rfl
  | succ n ih => simp [geometricPoints, ih]

@[simp] theorem schemePoints_length (T : Tables) (scheme : Byte) (n : Nat) :
    (schemePoints T scheme n).length = n := by
  unfold schemePoints; split <;> simp [sequentialPoints]

end Sys2Proof.Machine
end

