-- ==== Sys2Proof/Laws/PerInstr.lean ====
section
/-!
SUPPORT. Statements made of every instruction, one lemma per constructor: the word an instruction is spelled with lies
in the instruction's own row of the opcode table (30_encoding.md R62).
-/

namespace Sys2Proof.Laws.InOwnRow

/-- The encoded word matches the instruction's row, and that row is in the table. -/
def Statement (i : Instr) : Prop :=
  encode i &&& (rowOf i).mask = (rowOf i).pattern ∧ rowOf i ∈ opcodeTable

theorem word_in_command_row (op : Byte) : commandWord op &&& 0xFFFFF = 0x80000 + op.setWidth 20 := by
  revert op; decide +kernel

theorem rd (addr : Addr) : Statement (.rd addr) := by
  refine ⟨?_, show rowRd ∈ opcodeTable by decide⟩
  revert addr; decide +kernel
theorem wr (addr : Addr) (data : Byte) : Statement (.wr addr data) := by
  refine ⟨?_, show rowWr ∈ opcodeTable by decide⟩
  show (BitVec.ofBool true ++ addr ++ data : Txn) &&& 0x80000 = 0x80000
  refine BitVec.eq_of_getLsbD_eq fun i hi => ?_
  simp only [BitVec.getLsbD_and, BitVec.getLsbD_append]
  interval_cases i <;> simp
theorem nop : Statement .nop := by unfold Statement; decide +kernel
theorem fieldInit : Statement .fieldInit := by unfold Statement; decide +kernel
theorem schemeInit : Statement .schemeInit := by unfold Statement; decide +kernel
theorem encode : Statement .encode := by unfold Statement; decide +kernel
theorem reconstruct : Statement .reconstruct := by unfold Statement; decide +kernel
theorem add : Statement .add := by unfold Statement; decide +kernel
theorem sub : Statement .sub := by unfold Statement; decide +kernel
theorem mul : Statement .mul := by unfold Statement; decide +kernel
theorem div : Statement .div := by unfold Statement; decide +kernel
theorem pow : Statement .pow := by unfold Statement; decide +kernel
theorem inv : Statement .inv := by unfold Statement; decide +kernel
theorem exp : Statement .exp := by unfold Statement; decide +kernel
theorem log : Statement .log := by unfold Statement; decide +kernel
theorem illegal (data : Byte) : Statement (.illegal data) := by
  refine ⟨?_, show rowIllegal ∈ opcodeTable by decide⟩
  revert data; decide +kernel

end Sys2Proof.Laws.InOwnRow
end

