-- ==== Sys2Proof/Tests/Slice0.lean ====
section
/-!
SUPPORT. Tests of the model against numbers the spec states (95_test_vectors.md and the worked examples of the rules),
well-formedness, decoding, and for each statement with hypotheses a witness that meets them.
-/

open Sys2Proof Sys2Proof.Machine

set_option Elab.async false -- one theorem after another: many kernel evaluations at once would exhaust memory

namespace Sys2Proof.Tests.Slice0

/-! ## Small states -/

/-- The field of `POLY` = 0x1D is valid and the operand registers hold `a`, `b`, `el`, `eh`. -/
def operands (a b el eh : Byte) : State :=
  { State.reset with cmd := 0x01, fv := true, poly := 0x1D, tables := genTables 0x1D, a := a, b := b, el := el, eh := eh }

/-- `POLY` = 0x1D, K = 3, M = 2, geometric, scheme valid, `DATA` = 12 34 56, `DLEN` = 3 (95_test_vectors.md 6.2). -/
def geometric : State :=
  { operands 0x00 0x00 0x00 0x00 with
    cmd := 0x02, sv := true, k := 3, m := 2, dlen := 3
    mem := [(0x100, 0x12), (0x101, 0x34), (0x102, 0x56), (0x600, 0x01), (0x601, 0x02), (0x602, 0x04), (0x603, 0x08),
      (0x604, 0x10)] }

/-- `geometric` with `NSH` = 3 and the three slots (p0, v0), (p1, v1), (p2, v2); no position or value is zero. -/
def shards (p0 p1 p2 v0 v1 v2 : Byte) : State :=
  { geometric with
    nsh := 3
    mem := [(0x100, 0x12), (0x101, 0x34), (0x102, 0x56), (0x300, p0), (0x301, p1), (0x302, p2), (0x400, v0),
      (0x401, v1), (0x402, v2), (0x600, 0x01), (0x601, 0x02), (0x602, 0x04), (0x603, 0x08), (0x604, 0x10)] }

/-- The slots of 95_test_vectors.md 6.4: positions 4, 1 and 3 of the codeword 12 34 56 2A 08. -/
def surviving : State := shards 4 1 3 0x08 0x34 0x2A

/-- The sequential configuration with its scheme valid. -/
def sequential : State :=
  { geometric with
    scheme := 0x01
    mem := [(0x100, 0x12), (0x101, 0x34), (0x102, 0x56), (0x600, 0x01), (0x601, 0x02), (0x602, 0x03), (0x603, 0x04),
      (0x604, 0x05)] }

/-- Three data equal to their own evaluation points (R127). -/
def ownPoints : State :=
  { geometric with
    mem := [(0x100, 0x01), (0x101, 0x02), (0x102, 0x04), (0x600, 0x01), (0x601, 0x02), (0x602, 0x04), (0x603, 0x08),
      (0x604, 0x10)] }

/-- A field is valid and a configuration is written, but no scheme is valid yet. -/
def configured (k m scheme : Byte) : State := { operands 0x00 0x00 0x00 0x00 with k := k, m := m, scheme := scheme }

/-- `R`, `STATUS` and `ERRCODE` after an instruction. -/
def result (o : Host.Outcome State Fault Refusal) : Option (Byte × Byte × Byte) :=
  match o with
  | .next t => some (t.r, t.statusByte, t.errcode)
  | .fault _ | .refused _ => none

/-- `STATUS`, `ERRCODE` and `n` bytes of memory from `base` on, after an instruction. -/
def bytes (o : Host.Outcome State Fault Refusal) (base n : Nat) : Option (Byte × Byte × List Byte) :=
  match o with
  | .next t => some (t.statusByte, t.errcode, (List.range n).map fun i => Memory.read t.mem (base + i))
  | .fault _ | .refused _ => none

/-- The bytes returned to the host. -/
def reads (o : Host.Outcome State Fault Refusal) : Option (List Byte) :=
  match o with
  | .next t => some t.hostReads
  | .fault _ | .refused _ => none

/-- The instruction answers a next state with the property. -/
def Answers (o : Host.Outcome State Fault Refusal) (P : State → Bool) : Bool :=
  match o with
  | .next t => P t
  | .fault _ | .refused _ => false

theorem exists_next {o : Host.Outcome State Fault Refusal} {P : State → Prop} [DecidablePred P]
    (h : Answers o (fun t => decide (P t)) = true) : ∃ t, o = .next t ∧ P t := by
  unfold Answers at h
  split at h
  · exact ⟨_, rfl, of_decide_eq_true h⟩
  · cases h
  · cases h

/-! ## Well-formedness -/

theorem test_wf_write_to_cmd_is_a_command : (Instr.wr 0x000 0x01).wf = false := by decide
theorem test_wf_write_next_address : (Instr.wr 0x001 0x01).wf = true := by decide
theorem test_wf_illegal_with_opcode : (Instr.illegal 0x0F).wf = false ∧ (Instr.illegal 0x00).wf = false := by decide
theorem test_wf_illegal_without_opcode : (Instr.illegal 0x05).wf = true ∧ (Instr.illegal 0x10).wf = true := by decide

/-! ## Decoding: words written out bit by bit as W, addr, data (30_encoding.md R60, R62, R63) -/

theorem test_decode_rd : decode 0b0_00000010000_00000000 = .ok (.rd 0x010) := by decide
theorem test_decode_wr : decode 0b1_00000000100_00011101 = .ok (.wr 0x004 0x1D) := by decide
theorem test_decode_nop : decode 0b1_00000000000_00000000 = .ok .nop := by decide
theorem test_decode_fieldInit : decode 0b1_00000000000_00000001 = .ok .fieldInit := by decide
theorem test_decode_schemeInit : decode 0b1_00000000000_00000010 = .ok .schemeInit := by decide
theorem test_decode_encode : decode 0b1_00000000000_00000011 = .ok .encode := by decide
theorem test_decode_reconstruct : decode 0b1_00000000000_00000100 = .ok .reconstruct := by decide
theorem test_decode_add : decode 0b1_00000000000_00001000 = .ok .add := by decide
theorem test_decode_sub : decode 0b1_00000000000_00001001 = .ok .sub := by decide
theorem test_decode_mul : decode 0b1_00000000000_00001010 = .ok .mul := by decide
theorem test_decode_div : decode 0b1_00000000000_00001011 = .ok .div := by decide
theorem test_decode_pow : decode 0b1_00000000000_00001100 = .ok .pow := by decide
theorem test_decode_inv : decode 0b1_00000000000_00001101 = .ok .inv := by decide
theorem test_decode_exp : decode 0b1_00000000000_00001110 = .ok .exp := by decide
theorem test_decode_log : decode 0b1_00000000000_00001111 = .ok .log := by decide
theorem test_decode_illegal : decode 0b1_00000000000_01010101 = .ok (.illegal 0x55) := by decide
theorem test_decode_read_with_data : decode 0b0_00000000011_00000001 = .error (.readWithData 0x01) := by decide
theorem test_decodeTableWord_whole_bytes : decodeTableWord 24 0x8041D = some (.wr 0x004 0x1D) := by decide

/-! ## One step of each instruction, with the spec's numbers -/

-- 95_test_vectors.md section 9: `RD 0x003` returns 00.
theorem test_rd_unmapped : reads (exec (.rd 0x003) geometric) = some [0x00] := by decide +kernel
-- 10_state.md R23: `STATUS` is `ERR`, `SV`, `FV` in bits 2, 1, 0.
theorem test_rd_status : reads (exec (.rd 0x001) { geometric with err := true }) = some [0x07] := by decide +kernel
-- 95_test_vectors.md section 9: `WR DATA[255], AB`.
theorem test_wr_last_data : bytes (exec (.wr 0x1FF 0xAB) State.reset) 0x1FF 1 = some (0x00, 0x00, [0xAB]) := by
  decide +kernel
-- 95_test_vectors.md P3 step 37: `WR M` clears `SV` and leaves `ERR`.
theorem test_wr_m_clears_sv :
    result (exec (.wr 0x006 0x02) { geometric with err := true, errcode := 0x01 }) = some (0x00, 0x05, 0x01) := by
  decide +kernel
-- 95_test_vectors.md P4 steps 22 to 24.
theorem test_nop : result (exec .nop { operands 2 3 0 0 with err := true, errcode := 0x0A, r := 0x06 }) =
    some (0x06, 0x01, 0x00) := by decide +kernel
-- 95_test_vectors.md P1: `FIELD_INIT` with 0x1D succeeds; P4: with 0x1B it fails.
theorem test_fieldInit_primitive : result (exec .fieldInit { State.reset with poly := 0x1D }) =
    some (0x00, 0x01, 0x00) := by decide +kernel
theorem test_fieldInit_nonprimitive : result (exec .fieldInit { State.reset with poly := 0x1B }) =
    some (0x00, 0x04, 0x05) := by decide +kernel
-- 95_test_vectors.md section 5 and 8.1.
theorem test_schemeInit_geometric : bytes (exec .schemeInit (configured 6 12 0x00)) 0x600 19 =
    some (0x03, 0x00, [0x01, 0x02, 0x04, 0x08, 0x10, 0x20, 0x40, 0x80, 0x1D, 0x3A, 0x74, 0xE8, 0xCD, 0x87, 0x13, 0x26,
      0x4C, 0x98, 0x00]) := by decide +kernel
theorem test_schemeInit_sum_does_not_wrap : result (exec .schemeInit (configured 200 56 0x00)) =
    some (0x00, 0x05, 0x08) := by decide +kernel
-- 95_test_vectors.md 6.2 and 6.3.
theorem test_encode_geometric : bytes (exec .encode geometric) 0x200 6 =
    some (0x03, 0x00, [0x12, 0x34, 0x56, 0x2A, 0x08, 0x00]) := by decide +kernel
theorem test_encode_sequential : bytes (exec .encode sequential) 0x200 6 =
    some (0x03, 0x00, [0x12, 0x34, 0x56, 0xC2, 0xA0, 0x00]) := by decide +kernel
-- 95_test_vectors.md 6.4; 8.3: a position out of range before a duplicate.
theorem test_reconstruct_two_losses : bytes (exec .reconstruct surviving) 0x500 4 =
    some (0x03, 0x00, [0x12, 0x34, 0x56, 0x00]) := by decide +kernel
theorem test_reconstruct_range_before_duplicate : result (exec .reconstruct (shards 1 9 1 0x08 0x34 0x2A)) =
    some (0x00, 0x07, 0x09) := by decide +kernel
-- 95_test_vectors.md 3.1 to 3.7.
theorem test_add : result (exec .add (operands 0x53 0xCA 0 0)) = some (0x99, 0x01, 0x00) := by decide +kernel
theorem test_sub : result (exec .sub (operands 0x01 0x02 0 0)) = some (0x03, 0x01, 0x00) := by decide +kernel
theorem test_mul : result (exec .mul (operands 0x53 0xCA 0 0)) = some (0x8F, 0x01, 0x00) := by decide +kernel
theorem test_mul_wraps_at_255 : result (exec .mul (operands 0x8E 0x02 0 0)) = some (0x01, 0x01, 0x00) := by
  decide +kernel
theorem test_div_negative_exponent : result (exec .div (operands 0x02 0x03 0 0)) = some (0xF5, 0x01, 0x00) := by
  decide +kernel
theorem test_div_by_zero : result (exec .div { operands 0x05 0x00 0 0 with r := 0x8F }) = some (0x8F, 0x05, 0x02) := by
  decide +kernel
theorem test_pow_smallest_exponent : result (exec .pow (operands 0x02 0 0x00 0x80)) = some (0xCC, 0x01, 0x00) := by
  decide +kernel
theorem test_pow_zero_to_255 : result (exec .pow (operands 0x00 0 0xFF 0x00)) = some (0x00, 0x01, 0x00) := by
  decide +kernel
theorem test_inv_of_one : result (exec .inv (operands 0x01 0 0 0)) = some (0x01, 0x01, 0x00) := by decide +kernel
theorem test_inv_of_zero : result (exec .inv { operands 0x00 0 0 0 with r := 0x8C }) = some (0x8C, 0x05, 0x04) := by
  decide +kernel
theorem test_exp_255 : result (exec .exp (operands 0xFF 0 0 0)) = some (0x01, 0x01, 0x00) := by decide +kernel
theorem test_exp_8 : result (exec .exp (operands 0x08 0 0 0)) = some (0x1D, 0x01, 0x00) := by decide +kernel
theorem test_log_largest : result (exec .log (operands 0x8E 0 0 0)) = some (0xFE, 0x01, 0x00) := by decide +kernel
theorem test_log_of_zero : result (exec .log { operands 0x00 0 0 0 with r := 0x08 }) = some (0x08, 0x05, 0x06) := by
  decide +kernel
-- 95_test_vectors.md 8.3: illegal before not configured.
theorem test_illegal : result (exec (.illegal 0x55) State.reset) = some (0x00, 0x04, 0x0A) := by decide +kernel

/-! ## The placed word -/

theorem test_step_runs_placed_word :
    step (State.reset.withFetchWord 20 0x8041D) = .next { State.reset with poly := 0x1D } := rfl
theorem test_step_malformed_word :
    step (State.reset.withFetchWord 20 0x00301) = .refused (.notATransaction 0x00301) := rfl

/-! ## Witnesses: states with the invariant -/

theorem witness_primitive : coversGroup (genExp 0x1D) = true := by decide +kernel

theorem witness_not_primitive : coversGroup (genExp 0x00) = false := by decide +kernel

theorem witness_inv_reset : Inv State.reset :=
  ⟨⟨by decide, by decide⟩, ⟨by decide, by decide⟩, nofun, nofun⟩

theorem witness_inv_operands (a b el eh : Byte) : Inv (operands a b el eh) :=
  ⟨⟨reset_mem_wf, nofun⟩, ⟨⟨nofun, fun h => absurd rfl h⟩, List.mem_cons_self⟩,
    fun _ => ⟨witness_primitive, rfl⟩, nofun⟩

theorem witness_inv_geometric : Inv geometric :=
  ⟨⟨by decide, by decide⟩, ⟨by decide, by decide⟩, fun _ => ⟨witness_primitive, rfl⟩,
    fun _ => ⟨rfl, by decide, by unfold State.codeLength; decide +kernel⟩⟩

theorem witness_inv_ownPoints : Inv ownPoints :=
  ⟨⟨by decide, by decide⟩, ⟨by decide, by decide⟩, fun _ => ⟨witness_primitive, rfl⟩,
    fun _ => ⟨rfl, by decide, by unfold State.codeLength; decide +kernel⟩⟩

theorem witness_inv_surviving : Inv surviving :=
  ⟨⟨by decide, by decide⟩, ⟨by decide, by decide⟩, fun _ => ⟨witness_primitive, rfl⟩,
    fun _ => ⟨rfl, by decide, by unfold State.codeLength; decide +kernel⟩⟩

theorem witness_inv_sequential : Inv sequential :=
  ⟨⟨by decide, by decide⟩, ⟨by decide, by decide⟩, fun _ => ⟨witness_primitive, rfl⟩,
    fun _ => ⟨rfl, by decide, by unfold State.codeLength; decide +kernel⟩⟩

/-! ## Witnesses: one theorem per statement with hypotheses, its clauses at the ends of their ranges -/

theorem witness_DecodeOfEncodeIsIdentity :
    (∀ i ∈ [Instr.wr 0x001 0x00, .wr 0x7FF 0xFF, .illegal 0x05, .illegal 0x07, .illegal 0x10, .illegal 0xFF, .rd 0x000],
      i.wf = true) := by decide

theorem witness_EncodeOfDecodeIsIdentity :
    (∀ w ∈ [(0x00001 : Txn), 0x7FFFF], w.getLsbD 19 = false ∧ w.extractLsb' 0 8 ≠ 0x00) ∧
    (∀ w ∈ [(0x00000 : Txn), 0x7FF00, 0x80000, 0xFFFFF], ¬(w.getLsbD 19 = false ∧ w.extractLsb' 0 8 ≠ 0x00)) := by
  constructor <;> simp only [List.forall_mem_cons] <;> simp

theorem witness_WordFieldsAndOpcodeMap :
    (0x01 : Byte) ≠ 0x00 ∧ (0xFF : Byte) ≠ 0x00 ∧ (0x001 : Addr) ≠ 0x000 ∧ (0x7FF : Addr) ≠ 0x000 ∧
    ∀ data ∈ [(0x05 : Byte), 0x07, 0x10, 0xFF], (0x05 ≤ data.toNat ∧ data.toNat ≤ 0x07) ∨ 0x10 ≤ data.toNat := by
  decide

theorem witness_LargestMatchingRowWins :
    decode 0x80000 = .ok .nop ∧ decode 0x80055 = .ok (.illegal 0x55) ∧
    ∀ row ∈ [rowWr, rowIllegal, rowOf .nop], row ∈ opcodeTable ∧ (0x80000 : Txn) &&& row.mask = row.pattern := by decide

theorem witness_StepRunsDecodedTransaction :
    ({ State.reset with pending := [.transaction 0x8041D, .reset] }).pending = .transaction 0x8041D :: [.reset] ∧
    decode 0x8041D = .ok (.wr 0x004 0x1D) := by decide

theorem witness_StepOnOtherEvents :
    ({ State.reset with pending := [.reset] }).pending = .reset :: [] ∧
    ({ State.reset with pending := [.transaction 0x00301] }).pending = .transaction 0x00301 :: [] ∧
    decode 0x00301 = .error (.readWithData 0x01) ∧ State.reset.pending = [] := by decide

theorem witness_PlacedWordRunsNext :
    decodeTableWord 20 0x8041D = some (.wr 0x004 0x1D) ∧ decodeTableWord 20 0x00000 = some (.rd 0x000) ∧
    decodeTableWord 20 0xFFFFF = some (.wr 0x7FF 0xFF) := by decide

theorem witness_ResetBehaviour : (Instr.illegal 0x05).wf = true ∧ (Instr.illegal 0xFF).wf = true := by decide

theorem witness_StepKeepsInvariant : Inv { geometric with pending := [.transaction 0x80003] } ∧
    ∃ t, step { geometric with pending := [.transaction 0x80003] } = .next t ∧ t.mem ≠ geometric.mem :=
  ⟨⟨⟨by decide, by decide⟩, ⟨by decide, by decide⟩, fun _ => ⟨witness_primitive, rfl⟩,
    fun _ => ⟨rfl, by decide, by unfold State.codeLength; decide +kernel⟩⟩, exists_next (by decide +kernel)⟩

/-- The last entry of every buffer page, the first of the next, and the ends of the page of registers. -/
theorem witness_ReadReturnsLocation :
    [0x000, 0x00F, 0x010, 0x011, 0x0FF, 0x100, 0x102, 0x600, 0x604, 0x6FF, 0x700, 0x7FF].map
      (fun addr : Addr => geometric.hostRead addr) =
      [0x02, 0x00, 0x00, 0x00, 0x00, 0x12, 0x56, 0x01, 0x10, 0x00, 0x00, 0x00] := by decide +kernel

theorem witness_WriteEffectByAddress :
    (∀ addr ∈ [(0x001 : Addr), 0x004, 0x009, 0x00C, 0x00F, 0x010, 0x100, 0x1FF, 0x200, 0x2FF, 0x300, 0x4FF, 0x500, 0x7FF],
      addr ≠ 0x000) ∧
    decode (1#1 ++ 0x000#11 ++ 0x00#8) = .ok .nop ∧ decode (1#1 ++ 0x000#11 ++ 0xFF#8) = .ok (.illegal 0xFF) := by
  simp only [List.forall_mem_cons]; simp; decide

theorem witness_UnmappedAndReadOnly :
    (∀ addr ∈ [(0x003 : Addr), 0x00A, 0x00B, 0x011, 0x0FF, 0x700, 0x7FF], isUnmapped addr = true) ∧
    ∀ addr ∈ [(0x001 : Addr), 0x002, 0x010, 0x200, 0x2FF, 0x500, 0x6FF], isReadOnly addr = true := by
  simp only [List.forall_mem_cons]; simp [isUnmapped, isReadOnly]

theorem witness_ReadAfterWrite : Memory.wf geometric.mem ∧ (0x005 : Addr) ≠ 0x004 ∧ (0x005 : Addr) ≠ 0x001 ∧
    ∀ addr ∈ [(0x004 : Addr), 0x009, 0x00C, 0x00F, 0x100, 0x1FF, 0x300, 0x4FF], isStorable addr = true := by
  simp only [List.forall_mem_cons]; simp [isStorable]; decide

theorem witness_RepeatedWriteEqualsOne : Memory.wf geometric.mem ∧ (0x006 : Addr) ≠ 0x000 := by decide

theorem witness_ScalarCommandsFrame :
    (∀ i ∈ [Instr.add, .sub, .mul, .div, .pow, .inv, .exp, .log], isScalar i = true) ∧
    State.reset.fv = false ∧ (operands 0 0 0 0).fv = true := by decide

theorem witness_AddWritesXor : (operands 0x53 0xCA 0 0).fv = true := rfl
theorem witness_SubWritesXor : (operands 0x01 0x02 0 0).fv = true := rfl

theorem witness_MulWritesProduct : ∀ a b : Byte, (a, b) ∈ [((0x00 : Byte), (0x07 : Byte)), (0x07, 0x00), (0x53, 0xCA)] →
    Inv (operands a b 0 0) ∧ (operands a b 0 0).fv = true ∧
    ((operands a b 0 0).a = 0x00 ∨ (operands a b 0 0).b = 0x00 ∨
      ((operands a b 0 0).a ≠ 0x00 ∧ (operands a b 0 0).b ≠ 0x00)) :=
  fun a b _ => ⟨witness_inv_operands a b 0 0, rfl, by tauto⟩

theorem witness_DivWritesQuotientOrRaises :
    (Inv (operands 0x00 0x00 0 0) ∧ (operands 0x00 0x00 0 0).fv = true ∧ (operands 0x00 0x00 0 0).a = 0x00) ∧
    (Inv (operands 0x05 0x00 0 0) ∧ (operands 0x05 0x00 0 0).fv = true ∧
      (operands 0x05 0x00 0 0).a ≠ 0x00 ∧ (operands 0x05 0x00 0 0).b = 0x00) ∧
    (Inv (operands 0x01 0x02 0 0) ∧ (operands 0x01 0x02 0 0).fv = true ∧
      (operands 0x01 0x02 0 0).a ≠ 0x00 ∧ (operands 0x01 0x02 0 0).b ≠ 0x00) :=
  ⟨⟨witness_inv_operands _ _ _ _, rfl, rfl⟩, ⟨witness_inv_operands _ _ _ _, rfl, by decide, rfl⟩,
    ⟨witness_inv_operands _ _ _ _, rfl, by decide, by decide⟩⟩

theorem witness_PowWritesPower :
    (Inv (operands 0x00 0 0x00 0x00) ∧ (operands 0x00 0 0x00 0x00).fv = true ∧
      ((operands 0x00 0 0x00 0x00).eh ++ (operands 0x00 0 0x00 0x00).el : BitVec 16).toInt = 0) ∧
    (Inv (operands 0x00 0 0x00 0x80) ∧ (operands 0x00 0 0x00 0x80).fv = true ∧
      ((operands 0x00 0 0x00 0x80).eh ++ (operands 0x00 0 0x00 0x80).el : BitVec 16).toInt = -32768 ∧
      (operands 0x00 0 0x00 0x80).a = 0x00) ∧
    (Inv (operands 0x02 0 0xFF 0x7F) ∧ (operands 0x02 0 0xFF 0x7F).fv = true ∧
      ((operands 0x02 0 0xFF 0x7F).eh ++ (operands 0x02 0 0xFF 0x7F).el : BitVec 16).toInt = 32767 ∧
      (operands 0x02 0 0xFF 0x7F).a ≠ 0x00) :=
  ⟨⟨witness_inv_operands _ _ _ _, rfl, by decide⟩, ⟨witness_inv_operands _ _ _ _, rfl, by decide, rfl⟩,
    ⟨witness_inv_operands _ _ _ _, rfl, by decide, by decide⟩⟩

theorem witness_InvWritesInverseOrRaises :
    (Inv (operands 0x00 0 0 0) ∧ (operands 0x00 0 0 0).fv = true ∧ (operands 0x00 0 0 0).a = 0x00) ∧
    (Inv (operands 0x53 0 0 0) ∧ (operands 0x53 0 0 0).fv = true ∧ (operands 0x53 0 0 0).a ≠ 0x00) :=
  ⟨⟨witness_inv_operands _ _ _ _, rfl, rfl⟩, ⟨witness_inv_operands _ _ _ _, rfl, by decide⟩⟩

theorem witness_ExpWritesTableEntry : (operands 0xFF 0 0 0).fv = true := rfl

theorem witness_LogWritesExponentOrRaises :
    (Inv (operands 0x00 0 0 0) ∧ (operands 0x00 0 0 0).fv = true ∧ (operands 0x00 0 0 0).a = 0x00) ∧
    (Inv (operands 0xFF 0 0 0) ∧ (operands 0xFF 0 0 0).fv = true ∧ (operands 0xFF 0 0 0).a ≠ 0x00) :=
  ⟨⟨witness_inv_operands _ _ _ _, rfl, rfl⟩, ⟨witness_inv_operands _ _ _ _, rfl, by decide⟩⟩

theorem witness_ScalarWorkedExamples (a b el eh : Byte) :
    Inv (operands a b el eh) ∧ (operands a b el eh).fv = true ∧ (operands a b el eh).poly = 0x1D ∧
    (operands a b el eh).a = a ∧ (operands a b el eh).b = b ∧ (operands a b el eh).el = el ∧
    (operands a b el eh).eh = eh := ⟨witness_inv_operands a b el eh, rfl, rfl, rfl, rfl, rfl, rfl⟩

theorem witness_FieldInitBuildsTables :
    ({ State.reset with poly := 0x1D }).poly ∈ acceptedPolynomials ∧
    ({ State.reset with poly := 0xF5 }).poly ∈ acceptedPolynomials ∧ (0x02 : Byte) ≠ 0x00 := by decide

theorem witness_FieldInitRejectsOthers :
    State.reset.poly ∉ acceptedPolynomials ∧ ({ State.reset with poly := 0x1B }).poly ∉ acceptedPolynomials := by decide

theorem witness_PrimitivityFormulationsAgree : ∃ t, exec .fieldInit { State.reset with poly := 0x1D } = .next t ∧
    t.fv = true := ⟨_, fieldInit_accepts witness_primitive, rfl⟩

theorem witness_valid_field : Inv (operands 0 0 0 0) ∧ (operands 0 0 0 0).fv = true :=
  ⟨witness_inv_operands 0 0 0 0, rfl⟩

theorem witness_TablesOfValidField : Inv (operands 0 0 0 0) ∧ (operands 0 0 0 0).fv = true := witness_valid_field
theorem witness_InverseAndDivisionLaws : Inv (operands 0 0 0 0) ∧ (operands 0 0 0 0).fv = true := witness_valid_field
theorem witness_BytesFormField : Inv (operands 0 0 0 0) ∧ (operands 0 0 0 0).fv = true := witness_valid_field
theorem witness_PowerEquivalences : Inv (operands 0 0 0 0) ∧ (operands 0 0 0 0).fv = true := witness_valid_field

/-- 95_test_vectors.md 8.1: the smallest and the largest legal configurations, and both schemes. -/
theorem witness_SchemeInitWritesPoints : ∀ k m scheme : Byte,
    (k, m, scheme) ∈ [((0x01 : Byte), (0x00 : Byte), (0x00 : Byte)), (0x01, 0xFE, 0x00), (0xFF, 0x00, 0x01)] →
    Memory.wf (configured k m scheme).mem ∧ (configured k m scheme).fv = true ∧
    1 ≤ (configured k m scheme).k.toNat ∧
    (configured k m scheme).k.toNat + (configured k m scheme).m.toNat ≤ 255 ∧
    ((configured k m scheme).scheme = 0x00 ∨ (configured k m scheme).scheme = 0x01) := by
  rintro k m scheme h
  simp only [List.mem_cons, Prod.mk.injEq, List.not_mem_nil, or_false] at h
  obtain ⟨rfl, rfl, rfl⟩ | ⟨rfl, rfl, rfl⟩ | ⟨rfl, rfl, rfl⟩ := h <;> decide

theorem witness_SchemeInitErrors :
    State.reset.fv = false ∧
    ∀ s ∈ [configured 0 5 0x00, configured 200 56 0x00, configured 6 12 0x02],
      s.fv = true ∧ ¬(1 ≤ s.k.toNat ∧ s.k.toNat + s.m.toNat ≤ 255 ∧ (s.scheme = 0x00 ∨ s.scheme = 0x01)) := by decide

theorem witness_PointsOfValidScheme :
    (Inv geometric ∧ geometric.sv = true ∧ geometric.scheme = 0x00) ∧
    (Inv sequential ∧ sequential.sv = true ∧ sequential.scheme = 0x01) :=
  ⟨⟨witness_inv_geometric, rfl, rfl⟩, ⟨witness_inv_sequential, rfl, rfl⟩⟩

theorem witness_LagrangeFormula :
    Inv geometric ∧ geometric.fv = true ∧ DistinctPoints geometric.xpt 3 ∧ (0 < 3 ∧ 1 < 3 ∧ 1 ≠ 0) :=
  ⟨witness_inv_geometric, rfl, by
    have h : ∀ j < 3, ∀ l < 3, geometric.xpt j = geometric.xpt l → j = l := by decide +kernel
    exact fun j l hj hl => h j hj l hl, by decide⟩

theorem witness_EncodeWritesCodeword : Memory.wf geometric.mem ∧ geometric.fv = true ∧ geometric.sv = true ∧
    geometric.dlen = geometric.k := by decide

theorem witness_EncodeErrors :
    (State.reset.fv = false ∨ State.reset.sv = false) ∧
    ((configured 3 2 0x00).fv = false ∨ (configured 3 2 0x00).sv = false) ∧
    ∀ s ∈ [{ geometric with dlen := 2 }, { geometric with dlen := 4 }], s.fv = true ∧ s.sv = true ∧ s.dlen ≠ s.k := by
  decide

theorem witness_EncodeIsSystematic : Inv geometric ∧ geometric.sv = true ∧ geometric.dlen = geometric.k :=
  ⟨witness_inv_geometric, rfl, rfl⟩

theorem witness_OwnPointsEncodeToPoints : Inv ownPoints ∧ ownPoints.sv = true ∧ ownPoints.dlen = ownPoints.k ∧
    2 ≤ ownPoints.k.toNat ∧ ∀ j < ownPoints.k.toNat, ownPoints.data j = ownPoints.xpt j :=
  ⟨witness_inv_ownPoints, rfl, rfl, by decide, by decide⟩

theorem witness_surviving_shards : ShardsOk surviving := by
  refine ⟨by unfold State.kNat State.codeLength; decide, ?_⟩
  have h : ∀ j < 3, ∀ l < 3, surviving.shpos j = surviving.shpos l → j = l := by decide
  exact fun j l hj hl => h j hj l hl

theorem witness_ReconstructWritesData : Memory.wf surviving.mem ∧ surviving.fv = true ∧ surviving.sv = true ∧
    surviving.k.toNat ≤ surviving.nsh.toNat ∧ ShardsOk surviving :=
  ⟨by decide, rfl, rfl, by decide, witness_surviving_shards⟩

theorem witness_ReconstructErrors :
    (State.reset.fv = false ∨ State.reset.sv = false) ∧
    (geometric.fv = true ∧ geometric.sv = true ∧ geometric.nsh.toNat < geometric.k.toNat) ∧
    ((shards 5 1 3 8 9 10).fv = true ∧ (shards 5 1 3 8 9 10).sv = true ∧
      (shards 5 1 3 8 9 10).k.toNat ≤ (shards 5 1 3 8 9 10).nsh.toNat ∧
      ∃ j < (shards 5 1 3 8 9 10).k.toNat,
        (shards 5 1 3 8 9 10).k.toNat + (shards 5 1 3 8 9 10).m.toNat ≤ ((shards 5 1 3 8 9 10).shpos j).toNat) ∧
    ((shards 4 1 4 8 9 10).fv = true ∧ (shards 4 1 4 8 9 10).sv = true ∧
      (shards 4 1 4 8 9 10).k.toNat ≤ (shards 4 1 4 8 9 10).nsh.toNat ∧
      (∀ j < (shards 4 1 4 8 9 10).k.toNat,
        ((shards 4 1 4 8 9 10).shpos j).toNat < (shards 4 1 4 8 9 10).k.toNat + (shards 4 1 4 8 9 10).m.toNat) ∧
      ∃ j l, j < l ∧ l < (shards 4 1 4 8 9 10).k.toNat ∧
        (shards 4 1 4 8 9 10).shpos j = (shards 4 1 4 8 9 10).shpos l) :=
  ⟨by decide, by decide, by decide, rfl, rfl, by decide, by decide, 0, 2, by decide, by decide, by decide⟩

theorem witness_DataShardPassesThrough : Inv surviving ∧ surviving.sv = true ∧
    surviving.k.toNat ≤ surviving.nsh.toNat ∧ ShardsOk surviving ∧ 1 < surviving.k.toNat ∧
    (surviving.shpos 1).toNat = 1 :=
  ⟨witness_inv_surviving, rfl, by decide, witness_surviving_shards, by decide, by decide⟩

/-- Slot 3, the first that K = 3 does not select, differs. -/
theorem witness_UnselectedSlotsAreNotRead :
    Memory.wf surviving.mem ∧ Memory.wf (Memory.write surviving.mem 0x303 0xC8) ∧
    Memory.write surviving.mem 0x303 0xC8 ≠ surviving.mem ∧
    ∀ x : Nat, ¬(0x300 + surviving.k.toNat ≤ x ∧ x < 0x400) → ¬(0x400 + surviving.k.toNat ≤ x ∧ x < 0x500) →
      Memory.read (Memory.write surviving.mem 0x303 0xC8) x = Memory.read surviving.mem x :=
  ⟨by decide, by decide, by decide, fun x h _ => by
    refine Memory.read_write_other (by decide) _ fun he => h ?_
    subst he; decide⟩

/-- 95_test_vectors.md 6.2 and 6.4: the codeword 12 34 56 2A 08, and three of its symbols. -/
theorem witness_ReconstructInvertsEncode : ∃ t : State,
    Inv geometric ∧ geometric.sv = true ∧ geometric.dlen = geometric.k ∧ exec .encode geometric = .next t ∧
    Inv surviving ∧ surviving.sv = true ∧ surviving.poly = geometric.poly ∧ surviving.k = geometric.k ∧
    surviving.m = geometric.m ∧ surviving.scheme = geometric.scheme ∧
    surviving.k.toNat ≤ surviving.nsh.toNat ∧ ShardsOk surviving ∧
    ∀ j < surviving.k.toNat, surviving.shval j = t.cw (surviving.shpos j).toNat :=
  ⟨_, witness_inv_geometric, rfl, rfl, rfl, witness_inv_surviving, rfl, rfl, rfl, rfl, rfl, by decide,
    witness_surviving_shards, by decide +kernel⟩

theorem witness_IllegalCommandReported : ∀ v ∈ [(0x05 : Byte), 0x07, 0x10, 0xFF],
    (0x05 ≤ v.toNat ∧ v.toNat ≤ 0x07) ∨ 0x10 ≤ v.toNat := by decide

theorem witness_CommandsLeaveTheirCodes : ∀ i ∈ [Instr.nop, .fieldInit, .schemeInit, .encode, .reconstruct, .add, .sub,
    .mul, .div, .pow, .inv, .exp, .log, .illegal 0x05, .illegal 0xFF], i.wf = true ∧ isCommand i = true := by decide

/-- A failing command of each of the four kinds the statement tells apart. -/
theorem witness_FailureChangesNothingElse :
    (∃ t, exec .encode State.reset = .next t ∧ t.errcode ≠ 0x00) ∧
    (∃ t, exec .schemeInit State.reset = .next t ∧ t.errcode = 0x07) ∧
    (∃ t, exec .schemeInit (configured 0 5 0x00) = .next t ∧ t.errcode ≠ 0x00 ∧ t.errcode ≠ 0x07) ∧
    (∃ t, exec .fieldInit State.reset = .next t ∧ t.errcode ≠ 0x00) :=
  ⟨exists_next (by decide +kernel), exists_next (by decide +kernel), exists_next (by decide +kernel),
    ⟨_, fieldInit_rejects witness_not_primitive, by decide⟩⟩

theorem witness_FailedCommandFailsAgain :
    isCommand .div = true ∧ ∃ t, exec .div (operands 0x05 0x00 0 0) = .next t ∧ t.errcode ≠ 0x00 :=
  ⟨rfl, exists_next (by decide +kernel)⟩

theorem witness_ValidityFlagChanges : ∀ i ∈ [Instr.wr 0x004 0x1D, .wr 0x005 0x00, .wr 0x006 0x00, .wr 0x007 0x00,
    .wr 0x003 0x00, .wr 0x008 0x00, .fieldInit, .schemeInit, .nop], i.wf = true := by decide

theorem witness_ResultAndTableWriters :
    isCommand (.wr 0x004 0x1D) = false ∧ (Instr.wr 0x004 0x1D).wf = true ∧ Instr.add.wf = true ∧
    (∃ t, exec .add (operands 0x53 0xCA 0 0) = .next t ∧ t.r ≠ (operands 0x53 0xCA 0 0).r) ∧
    (∃ t, exec .fieldInit { State.reset with poly := 0x1D } = .next t ∧ t.tables ≠ State.reset.tables) :=
  ⟨rfl, by decide, by decide, exists_next (by decide +kernel), _, fieldInit_accepts witness_primitive, fun h =>
    absurd (congrArg (fun T => expAt T 0) h) (by decide +kernel)⟩

theorem witness_CommandsKeepHostRegisters : isCommand .fieldInit = true ∧ isCommand (.illegal 0x05) = true := by decide

theorem witness_CommandsWriteOnlyTheirBuffers :
    Inv geometric ∧ isCommand .encode = true ∧ (∃ t, exec .encode geometric = .next t ∧
      Memory.read t.mem 0x204 ≠ Memory.read geometric.mem 0x204) ∧
    Inv surviving ∧ isCommand .reconstruct = true ∧ (∃ t, exec .reconstruct surviving = .next t ∧
      Memory.read t.mem 0x502 ≠ Memory.read surviving.mem 0x502) :=
  ⟨witness_inv_geometric, rfl, exists_next (by decide +kernel), witness_inv_surviving, rfl, exists_next (by decide +kernel)⟩

end Sys2Proof.Tests.Slice0
end

section
/-!
PROOFS. What an instruction can do to the state, told once: the outcomes of the commands (`CommandResult`), the frame of
a host write, and from these the invariant of the machine (10_state.md section 9) and the statements about the state.
-/

namespace Sys2Proof.Machine

/-! ## The outcomes of a command -/

/-- The errors of a command after which only `CMD` and the error indication have changed (60_exceptions.md R161, R163):
all but `NonPrimitivePolynomial` and `InvalidConfiguration`, which also touch the field or the scheme. -/
def plainErrors : Instr → List ErrorKind
  | .rd _ | .wr _ _ | .nop | .fieldInit => []
  | .schemeInit | .add | .sub | .mul | .pow | .exp => [.notConfigured]
  | .encode => [.notConfigured, .invalidShardCount]
  | .reconstruct => [.notConfigured, .invalidShardCount, .positionOutOfRange, .corruptedEvaluationPoints]
  | .div => [.notConfigured, .divisionByZero]
  | .inv => [.notConfigured, .zeroHasNoInverse]
  | .log => [.notConfigured, .logOfZero]
  | .illegal _ => [.illegalCommand]

/-- The states a command can leave, by the way it ends; each carries the guard it ends under, as far as a proof about
the state needs it. The byte latched in a case for several instructions is a variable: the kernel then compares two
states without evaluating `commandByte`. -/
inductive CommandResult (s : State) : Instr → State → Prop where
  | failed {i : Instr} {op : Byte} (hop : op = commandByte i) (e : ErrorKind) (he : e ∈ plainErrors i) :
      CommandResult s i ((s.latch op).raise e)
  | nop : CommandResult s .nop (s.latch 0x00).done
  | scalar {i : Instr} {op : Byte} (hop : op = commandByte i) (v : Byte) (hi : isScalar i = true) :
      CommandResult s i ((s.latch op).setR v).done
  | fieldAccepted (hc : coversGroup (genExp s.poly) = true) :
      CommandResult s .fieldInit (s.latch 0x01).invalidateScheme.acceptField.done
  | fieldRejected :
      CommandResult s .fieldInit ((s.latch 0x01).invalidateScheme.rejectField.raise .nonPrimitivePolynomial)
  | schemeAccepted (hf : s.fv = true) (hl : s.legalConfiguration = true) :
      CommandResult s .schemeInit ((s.latch 0x02).storeBlock xptBase
        (schemePoints s.tables s.scheme s.codeLength)).validateScheme.done
  | schemeRejected :
      CommandResult s .schemeInit ((s.latch 0x02).invalidateScheme.raise .invalidConfiguration)
  | encoded (hs : s.sv = true) :
      CommandResult s .encode ((s.latch 0x03).storeBlock cwBase s.codeword).done
  | reconstructed :
      CommandResult s .reconstruct ((s.latch 0x04).storeBlock outBase s.recovered).done

/-! Each field function raises one error, its own (40_field_arithmetic.md R83, R85, R86). -/

theorem gfDiv_error {T : Tables} {a b : Byte} {e : ErrorKind} (h : gfDiv T a b = .error e) : e = .divisionByZero := by
  unfold gfDiv at h
  split_ifs at h
  cases h; rfl

theorem gfInv_error {T : Tables} {a : Byte} {e : ErrorKind} (h : gfInv T a = .error e) : e = .zeroHasNoInverse := by
  unfold gfInv at h
  split_ifs at h
  cases h; rfl

theorem gfLog_error {T : Tables} {x : Byte} {e : ErrorKind} (h : gfLog T x = .error e) : e = .logOfZero := by
  unfold gfLog at h
  split_ifs at h
  cases h; rfl

/-- A scalar command ends as a command can, when its function's errors are the command's own (R80). -/
theorem scalarCommand_result {i : Instr} {value : Except ErrorKind Byte} (s : State) (hi : isScalar i = true)
    (hn : .notConfigured ∈ plainErrors i) (he : ∀ e, value = .error e → e ∈ plainErrors i) :
    CommandResult s i (scalarCommand (commandByte i) value s) := by
  obtain ⟨-, h⟩ | ⟨-, v, -, h⟩ | ⟨-, e, hv, h⟩ := scalarCommand_cases (commandByte i) value s <;> rw [h]
  · exact .failed rfl _ hn
  · exact .scalar rfl v hi
  · exact .failed rfl e (he e hv)

theorem fieldInit_result (s : State) : ∃ t, exec .fieldInit s = .next t ∧ CommandResult s .fieldInit t := by
  cases hc : coversGroup (genExp s.poly)
  · exact ⟨_, fieldInit_rejects hc, .fieldRejected⟩
  · exact ⟨_, fieldInit_accepts hc, .fieldAccepted hc⟩

theorem schemeInit_result (s : State) : ∃ t, exec .schemeInit s = .next t ∧ CommandResult s .schemeInit t := by
  rw [exec, execSchemeInit_eq]
  split_ifs with hf hl
  · exact ⟨_, rfl, .failed rfl .notConfigured (by decide)⟩
  · exact ⟨_, rfl, .schemeRejected⟩
  · exact ⟨_, rfl, .schemeAccepted (by simpa using hf) (by simpa using hl)⟩

theorem encode_result (s : State) : ∃ t, exec .encode s = .next t ∧ CommandResult s .encode t := by
  rw [exec, execEncode_eq]
  split_ifs with hv hd
  · exact ⟨_, rfl, .failed rfl .notConfigured (by decide)⟩
  · exact ⟨_, rfl, .failed rfl .invalidShardCount (by decide)⟩
  · exact ⟨_, rfl, .encoded (by simp_all)⟩

theorem reconstruct_result (s : State) : ∃ t, exec .reconstruct s = .next t ∧ CommandResult s .reconstruct t := by
  rw [exec, execReconstruct_eq]
  split_ifs
  · exact ⟨_, rfl, .failed rfl .notConfigured (by decide)⟩
  · exact ⟨_, rfl, .failed rfl .invalidShardCount (by decide)⟩
  · exact ⟨_, rfl, .failed rfl .positionOutOfRange (by decide)⟩
  · exact ⟨_, rfl, .failed rfl .corruptedEvaluationPoints (by decide)⟩
  · exact ⟨_, rfl, .reconstructed⟩

@[simp] theorem commandByte_illegal (data : Byte) : commandByte (.illegal data) = data := by
  revert data; decide +kernel

/-- Every command answers, in one of the ways `CommandResult` lists. -/
theorem exec_command {i : Instr} (s : State) (hi : isCommand i = true) :
    ∃ t, exec i s = .next t ∧ CommandResult s i t := by
  cases i with
  | rd addr => cases hi
  | wr addr data => cases hi
  | nop => exact ⟨_, rfl, .nop⟩
  | fieldInit => exact fieldInit_result s
  | schemeInit => exact schemeInit_result s
  | encode => exact encode_result s
  | reconstruct => exact reconstruct_result s
  | add => exact ⟨_, rfl, scalarCommand_result s rfl (by decide) nofun⟩
  | sub => exact ⟨_, rfl, scalarCommand_result s rfl (by decide) nofun⟩
  | mul => exact ⟨_, rfl, scalarCommand_result s rfl (by decide) nofun⟩
  | div => exact ⟨_, rfl, scalarCommand_result s rfl (by decide) fun e h => by rw [gfDiv_error h]; decide⟩
  | pow => exact ⟨_, rfl, scalarCommand_result s rfl (by decide) nofun⟩
  | inv => exact ⟨_, rfl, scalarCommand_result s rfl (by decide) fun e h => by rw [gfInv_error h]; decide⟩
  | exp => exact ⟨_, rfl, scalarCommand_result s rfl (by decide) nofun⟩
  | log => exact ⟨_, rfl, scalarCommand_result s rfl (by decide) fun e h => by rw [gfLog_error h]; decide⟩
  | illegal data => exact ⟨_, rfl, .failed (commandByte_illegal data).symm .illegalCommand List.mem_cons_self⟩

/-- What a well-formed instruction can do: a read, a write to a location other than `CMD`, or a command. -/
theorem exec_cases {i : Instr} (s : State) (h : i.wf = true) :
    (∃ addr v, i = .rd addr ∧ exec i s = .next (s.returnByte v)) ∨
    (∃ addr v, i = .wr addr v ∧ exec i s = .next (s.writeLoc v (locOf addr))) ∨
    (isCommand i = true ∧ ∃ t, exec i s = .next t ∧ CommandResult s i t) := by
  cases hi : isCommand i
  · cases i with
    | rd addr => exact .inl ⟨addr, _, rfl, rfl⟩
    | wr addr v =>
      have ha : addr ≠ 0x000 := by simpa [Instr.wf] using h
      exact .inr (.inl ⟨addr, v, rfl, if_neg ha⟩)
    | _ => cases hi
  · exact .inr (.inr ⟨rfl, exec_command s hi⟩)

/-- What the decoder gives is well-formed (30_encoding.md R67): a byte it calls illegal is no opcode. -/
theorem decodeCommand_wf (v : Byte) : (decodeCommand v).wf = true := by
  revert v; decide +kernel

theorem decode_wf {w : Txn} {i : Instr} (h : decode w = .ok i) : i.wf = true := by
  unfold decode at h
  split_ifs at h with _ ha <;> cases h
  · exact decodeCommand_wf _
  · simpa [Instr.wf] using ha
  · rfl

/-! ## The error indication -/

/-- The errors of a command are among the codes R161 gives it. -/
theorem code_mem_possibleCodes {i : Instr} (hw : i.wf = true) {e : ErrorKind} (he : e ∈ plainErrors i) :
    e.code ∈ possibleCodes (commandByte i) := by
  cases i with
  | rd addr | wr addr data | nop | fieldInit => cases he
  | illegal data =>
    have hc : ∀ v : Byte, (Instr.illegal v).wf = true → possibleCodes v = [0x0A] := by decide +kernel
    rw [commandByte_illegal, hc data hw, List.mem_singleton.mp he]
    decide
  | _ => revert e; decide

/-- A command that can succeed can leave 0x00. -/
theorem zero_mem_possibleCodes_of_isScalar {i : Instr} (hi : isScalar i = true) :
    0x00 ∈ possibleCodes (commandByte i) := by
  cases i with
  | rd | wr | nop | fieldInit | schemeInit | encode | reconstruct | illegal => cases hi
  | _ => decide

theorem ErrorKind.code_ne_zero (e : ErrorKind) : e.code ≠ 0x00 := by cases e <;> decide

theorem ErrorOk.done {s : State} (h : 0x00 ∈ possibleCodes s.cmd) : ErrorOk s.done := ⟨by simp, h⟩

theorem ErrorOk.raise {s : State} {e : ErrorKind} (h : e.code ∈ possibleCodes s.cmd) : ErrorOk (s.raise e) :=
  ⟨iff_of_true rfl e.code_ne_zero, h⟩

theorem CommandResult.cmd_eq {s t : State} {i : Instr} (h : CommandResult s i t) : t.cmd = commandByte i := by
  cases h with
  | failed hop | scalar hop => exact hop
  | _ => rfl

/-- A command leaves a consistent error indication, whatever it found. -/
theorem CommandResult.errorOk {s t : State} {i : Instr} (h : CommandResult s i t) (hw : i.wf = true) : ErrorOk t := by
  cases h with
  | failed hop e he => exact .raise (hop ▸ code_mem_possibleCodes hw he)
  | scalar hop v hi => exact .done (hop ▸ zero_mem_possibleCodes_of_isScalar hi)
  | fieldRejected | schemeRejected => exact .raise (by simp [possibleCodes, ErrorKind.code])
  | nop | fieldAccepted | schemeAccepted | encoded | reconstructed => exact .done (by simp [possibleCodes])

/-! ## The memory -/

/-- An address whose byte a block write changes lies in the block. -/
theorem Memory.mem_block_of_read_ne {mem : Memory} (h : Memory.wf mem) {base x : Nat} {vs : List Byte}
    (hx : Memory.read (Memory.writeBlock mem base vs) x ≠ Memory.read mem x) : base ≤ x ∧ x < base + vs.length := by
  by_contra hn
  exact hx (by rw [Memory.read_writeBlock h, if_neg hn])

theorem MemoryOk.of_write {s t : State} (h : MemoryOk s) {x : Nat} {v : Byte} (ht : t.mem = Memory.write s.mem x v)
    (hx : 0x100 ≤ x ∧ x < 0x700) : MemoryOk t := by
  obtain ⟨hwf, hrange⟩ := h
  refine ⟨ht ▸ Memory.wf_write x v hwf, fun c hc => ?_⟩
  obtain ⟨rfl, -⟩ | hc := Memory.mem_write (ht ▸ hc)
  · exact hx
  · exact hrange c hc

theorem MemoryOk.of_writeBlock {s t : State} (h : MemoryOk s) {base : Nat} {vs : List Byte}
    (ht : t.mem = Memory.writeBlock s.mem base vs) (hb : 0x100 ≤ base) (he : base + vs.length ≤ 0x700) :
    MemoryOk t := by
  obtain ⟨hwf, hrange⟩ := h
  refine ⟨ht ▸ Memory.wf_writeBlock base vs hwf, fun c hc => ?_⟩
  obtain hc | hc := Memory.mem_writeBlock (ht ▸ hc)
  · omega
  · exact hrange c hc

/-- The codeword of a valid scheme fits a buffer, and its last entry is never part of it (43_evaluation_scheme.md
R132). -/
theorem codeLength_le_of_legal {s : State} (h : s.legalConfiguration = true) : s.codeLength ≤ 255 :=
  ((legalConfiguration_iff s).mp h).2.1

theorem Inv.codeLength_le {s : State} (h : Inv s) (hs : s.sv = true) : s.codeLength ≤ 255 := by
  obtain ⟨-, hl, -⟩ := h.schemeOk hs
  exact codeLength_le_of_legal hl

theorem Inv.mem_wf {s : State} (h : Inv s) : Memory.wf s.mem := h.memoryOk.1

/-- Everything a command can do to the memory: nothing, or on success one block written in its own buffer, which stops
before the buffer's entry 255. -/
theorem CommandResult.mem_cases {s t : State} {i : Instr} (h : CommandResult s i t) (hs : Inv s) :
    t.mem = s.mem ∨ ∃ base vs, t.mem = Memory.writeBlock s.mem base vs ∧ t.errcode = 0x00 ∧ vs.length ≤ 255 ∧
      ((i = .encode ∧ base = cwBase ∧ vs.length = s.codeLength) ∨
       (i = .reconstruct ∧ base = outBase ∧ vs.length = s.kNat) ∨
       (i = .schemeInit ∧ base = xptBase ∧ vs.length = s.codeLength)) := by
  cases h with
  | failed | nop | scalar | fieldAccepted | fieldRejected | schemeRejected => exact .inl rfl
  | schemeAccepted hf hl =>
    have hlen := schemePoints_length s.tables s.scheme s.codeLength
    exact .inr ⟨_, _, rfl, rfl, hlen.trans_le (codeLength_le_of_legal hl), .inr (.inr ⟨rfl, rfl, hlen⟩)⟩
  | encoded hv =>
    have hlen := codeword_length s
    exact .inr ⟨_, _, rfl, rfl, hlen.trans_le (hs.codeLength_le hv), .inl ⟨rfl, rfl, hlen⟩⟩
  | reconstructed =>
    have hlen := recovered_length s
    exact .inr ⟨_, _, rfl, rfl, hlen.trans_le (Nat.le_of_lt_succ s.k.isLt), .inr (.inl ⟨rfl, rfl, hlen⟩)⟩

theorem CommandResult.memoryOk {s t : State} {i : Instr} (h : CommandResult s i t) (hs : Inv s) : MemoryOk t := by
  obtain hm | ⟨base, vs, hm, -, hlen, hbuf⟩ := h.mem_cases hs
  · unfold MemoryOk
    exact hm ▸ hs.memoryOk
  · simp only [cwBase, outBase, xptBase] at hbuf
    exact hs.memoryOk.of_writeBlock hm (by omega) (by omega)

theorem writeLoc_memoryOk {s : State} (h : MemoryOk s) (v : Byte) (l : Loc) : MemoryOk (s.writeLoc v l) := by
  cases l with
  | data j | shpos j | shval j =>
    have := j.isLt
    exact h.of_write rfl (by simp only [dataBase, shposBase, shvalBase]; omega)
  | _ => exact h

/-! ## What a host write leaves unchanged (20_memory.md R45) -/

section
variable (s : State) (v : Byte) (l : Loc)
@[simp] theorem writeLoc_cmd : (s.writeLoc v l).cmd = s.cmd := by cases l <;> rfl
@[simp] theorem writeLoc_errcode : (s.writeLoc v l).errcode = s.errcode := by cases l <;> rfl
@[simp] theorem writeLoc_err : (s.writeLoc v l).err = s.err := by cases l <;> rfl
@[simp] theorem writeLoc_r : (s.writeLoc v l).r = s.r := by cases l <;> rfl
@[simp] theorem writeLoc_tables : (s.writeLoc v l).tables = s.tables := by cases l <;> rfl
end

/-! ## The invariant -/

theorem CommandResult.fieldOk {s t : State} {i : Instr} (h : CommandResult s i t) (hs : FieldOk s) : FieldOk t := by
  cases h with
  | fieldAccepted hc => exact fun _ => ⟨hc, rfl⟩
  | fieldRejected => exact nofun
  | _ => exact hs

theorem writeLoc_fieldOk {s : State} (h : FieldOk s) (v : Byte) (l : Loc) : FieldOk (s.writeLoc v l) := by
  cases l with
  | poly => exact nofun
  | _ => exact h

/-- What `SV` = 1 means does not depend on the buffers below `XPT`. -/
theorem SchemeOk.of_mem {s : State} (h : SchemeOk s) {mem : Memory}
    (hx : ∀ x, xptBase ≤ x → Memory.read mem x = Memory.read s.mem x) : SchemeOk { s with mem := mem } := by
  intro hv
  obtain ⟨hf, hl, hp⟩ := h hv
  exact ⟨hf, hl, fun i hi => (hx _ (Nat.le_add_right _ _)).trans (hp i hi)⟩

theorem SchemeOk.store {s : State} (h : SchemeOk s) (hm : Memory.wf s.mem) {x : Nat} (v : Byte) (hx : x < xptBase) :
    SchemeOk (s.store x v) :=
  h.of_mem fun _ hj => Memory.read_write_other hm v (by omega)

theorem SchemeOk.storeBlock {s : State} (h : SchemeOk s) (hm : Memory.wf s.mem) {base : Nat} {vs : List Byte}
    (he : base + vs.length ≤ xptBase) : SchemeOk (s.storeBlock base vs) :=
  h.of_mem fun _ hj => by rw [Memory.read_writeBlock hm, if_neg (by omega)]

/-- `SCHEME_INIT` makes `SV` mean what it says (43_evaluation_scheme.md R130). -/
theorem schemeAccepted_schemeOk {s : State} (hm : Memory.wf s.mem) (hf : s.fv = true)
    (hl : s.legalConfiguration = true) :
    SchemeOk (s.storeBlock xptBase (schemePoints s.tables s.scheme s.codeLength)).validateScheme := by
  refine fun _ => ⟨hf, hl, fun i hi => ?_⟩
  have hi : i < s.codeLength := hi
  show Memory.read (Memory.writeBlock s.mem xptBase _) (xptBase + i) = _
  rw [Memory.read_writeBlock hm, if_pos (by rw [schemePoints_length]; omega), Nat.add_sub_cancel_left]
  rfl

theorem CommandResult.schemeOk {s t : State} {i : Instr} (h : CommandResult s i t) (hs : Inv s) : SchemeOk t := by
  have hm := hs.mem_wf
  cases h with
  | failed | nop | scalar => exact hs.schemeOk
  | fieldAccepted | fieldRejected | schemeRejected => exact nofun
  | schemeAccepted hf hl => exact schemeAccepted_schemeOk hm hf hl
  | encoded hv =>
    have := hs.codeLength_le hv
    exact hs.schemeOk.storeBlock hm (by simp only [codeword_length, cwBase, xptBase]; omega)
  | reconstructed =>
    have : s.kNat < 256 := s.k.isLt
    exact hs.schemeOk.storeBlock hm (by simp only [recovered_length, outBase, xptBase]; omega)

theorem writeLoc_schemeOk {s : State} (h : SchemeOk s) (hm : Memory.wf s.mem) (v : Byte) (l : Loc) :
    SchemeOk (s.writeLoc v l) := by
  cases l with
  | poly | k | m | scheme => exact nofun
  | data j | shpos j | shval j =>
    have := j.isLt
    exact h.store hm v (by simp only [dataBase, shposBase, shvalBase, xptBase]; omega)
  | _ => exact h

theorem CommandResult.keeps_inv {s t : State} {i : Instr} (h : CommandResult s i t) (hw : i.wf = true) (hs : Inv s) :
    Inv t :=
  ⟨h.memoryOk hs, h.errorOk hw, h.fieldOk hs.fieldOk, h.schemeOk hs⟩

theorem writeLoc_keeps_inv {s : State} (h : Inv s) (v : Byte) (l : Loc) : Inv (s.writeLoc v l) where
  memoryOk := writeLoc_memoryOk h.memoryOk v l
  errorOk := by simpa [ErrorOk] using h.errorOk
  fieldOk := writeLoc_fieldOk h.fieldOk v l
  schemeOk := writeLoc_schemeOk h.schemeOk h.mem_wf v l

/-- The model's own lists do not enter the invariant. -/
theorem advance_keeps_inv {s : State} (h : Inv s) (rest : List HostEvent) : Inv (s.advance rest) :=
  ⟨h.memoryOk, h.errorOk, h.fieldOk, h.schemeOk⟩

theorem returnByte_keeps_inv {s : State} (h : Inv s) (v : Byte) : Inv (s.returnByte v) :=
  ⟨h.memoryOk, h.errorOk, h.fieldOk, h.schemeOk⟩

theorem reset_inv : Inv State.reset where
  memoryOk := ⟨reset_mem_wf, nofun⟩
  errorOk := ⟨by decide, by decide⟩
  fieldOk := nofun
  schemeOk := nofun

theorem environmentReset_inv (s : State) : Inv s.environmentReset :=
  ⟨reset_inv.memoryOk, reset_inv.errorOk, nofun, nofun⟩

theorem exec_keeps_inv {i : Instr} {s t : State} (hw : i.wf = true) (hs : Inv s) (h : exec i s = .next t) : Inv t := by
  obtain ⟨_, v, -, hx⟩ | ⟨addr, v, -, hx⟩ | ⟨-, u, hx, hu⟩ := exec_cases s hw <;> cases hx.symm.trans h
  · exact returnByte_keeps_inv hs v
  · exact writeLoc_keeps_inv hs v (locOf addr)
  · exact hu.keeps_inv hw hs

theorem step_keeps_inv {s t : State} (hs : Inv s) (h : step s = .next t) : Inv t := by
  unfold step at h
  obtain ⟨-, hf⟩ | ⟨rest, -, hf⟩ | ⟨w, rest, i, -, hd, hf⟩ | ⟨w, rest, e, -, -, hf⟩ := fetch_cases s <;> rw [hf] at h
  · cases h; exact hs
  · cases h; exact environmentReset_inv _
  · exact exec_keeps_inv (decode_wf hd) (advance_keeps_inv hs rest) h
  · cases h

/-! ## The validity flags, as a host write leaves them (10_state.md R35) -/

theorem writeLoc_fv (s : State) (v : Byte) (l : Loc) :
    (s.writeLoc v l).fv = if l = .poly then false else s.fv := by cases l <;> rfl

theorem writeLoc_sv (s : State) (v : Byte) (l : Loc) :
    (s.writeLoc v l).sv = if l = .poly ∨ l = .k ∨ l = .m ∨ l = .scheme then false else s.sv := by cases l <;> rfl

/-- The registers of the field and of the scheme stand at one address each (20_memory.md R41). -/
theorem locOf_eq_configuration (addr : Addr) :
    (locOf addr = .poly ↔ addr = 0x004) ∧ (locOf addr = .k ↔ addr = 0x005) ∧ (locOf addr = .m ↔ addr = 0x006) ∧
    (locOf addr = .scheme ↔ addr = 0x007) := by
  revert addr; decide +kernel

/-- The validity flags after a write, by its address (10_state.md R35). -/
theorem write_flags (s : State) (v : Byte) (addr : Addr) :
    (s.writeLoc v (locOf addr)).fv = (if addr = 0x004 then false else s.fv) ∧
    (s.writeLoc v (locOf addr)).sv =
      (if addr = 0x004 ∨ addr = 0x005 ∨ addr = 0x006 ∨ addr = 0x007 then false else s.sv) := by
  obtain ⟨hp, hk, hm, hc⟩ := locOf_eq_configuration addr
  simp only [writeLoc_fv, writeLoc_sv, hp, hk, hm, hc, and_self]

/-! ## The validity flags, as a command leaves them (10_state.md R35) -/

theorem CommandResult.flags_of_ne {s t : State} {i : Instr} (h : CommandResult s i t) (hf : i ≠ .fieldInit)
    (hs : i ≠ .schemeInit) : t.fv = s.fv ∧ t.sv = s.sv := by
  cases h with
  | failed | nop | scalar | encoded | reconstructed => exact ⟨rfl, rfl⟩
  | fieldAccepted | fieldRejected => exact absurd rfl hf
  | schemeAccepted | schemeRejected => exact absurd rfl hs

theorem CommandResult.fieldInit_flags {s t : State} (h : CommandResult s .fieldInit t) :
    t.sv = false ∧ (t.fv = true ↔ t.errcode = 0x00) := by
  cases h with
  | failed _ e he => cases he
  | scalar _ v hi => cases hi
  | fieldAccepted => exact ⟨rfl, iff_of_true rfl rfl⟩
  | fieldRejected => exact ⟨rfl, iff_of_false Bool.false_ne_true (ErrorKind.code_ne_zero .nonPrimitivePolynomial)⟩

theorem CommandResult.schemeInit_flags {s t : State} (h : CommandResult s .schemeInit t) :
    t.fv = s.fv ∧ (t.errcode = 0x00 → t.sv = true) ∧ (t.errcode = 0x08 → t.sv = false) ∧
      (t.errcode = 0x07 → t.sv = s.sv) := by
  cases h with
  | failed _ e he =>
    cases List.mem_singleton.mp he
    exact ⟨rfl, nofun, nofun, fun _ => rfl⟩
  | scalar _ v hi => cases hi
  | schemeAccepted hf hl => exact ⟨rfl, fun _ => rfl, nofun, nofun⟩
  | schemeRejected => exact ⟨rfl, nofun, fun _ => rfl, nofun⟩

end Sys2Proof.Machine

section
open Sys2Proof Sys2Proof.Machine

/-- Settles O12: the four kinds of step of `fetch_cases`, each by the lemma of its kind. -/
theorem stepKeepsInvariant : Obligations.StepKeepsInvariant := by
  unfold Obligations.StepKeepsInvariant
  exact fun s t hs h => step_keeps_inv hs h

/-- Settles O11: the memory is empty, and both flags are 0. -/
theorem resetSatisfiesInvariant : Obligations.ResetSatisfiesInvariant := reset_inv

/-- Settles O51: the command's byte by `CommandResult.cmd_eq`, the rest by the error indication it leaves. -/
theorem commandsLeaveTheirCodes : Obligations.CommandsLeaveTheirCodes := by
  unfold Obligations.CommandsLeaveTheirCodes
  intro i s hw hi
  obtain ⟨t, hx, ht⟩ := exec_command s hi
  obtain ⟨herr, hcode⟩ := ht.errorOk hw
  exact ⟨t, hx, ht.cmd_eq, ht.cmd_eq ▸ hcode, herr⟩

/-- Settles O54: a read keeps both flags, a write does what its location says, and of the commands only `FIELD_INIT` and
`SCHEME_INIT` have an ending that touches one. -/
theorem validityFlagChanges : Obligations.ValidityFlagChanges := by
  unfold Obligations.ValidityFlagChanges
  intro i s hw
  obtain ⟨addr, v, rfl, hx⟩ | ⟨addr, v, rfl, hx⟩ | ⟨hi, t, hx, ht⟩ := exec_cases s hw
  · exact ⟨_, hx, by simp⟩
  · obtain ⟨hfv, hsv⟩ := write_flags s v addr
    refine ⟨_, hx, ?_, ?_, nofun, nofun, fun hne _ _ => ?_⟩ <;> rw [hfv, hsv]
    · rintro ⟨_, h⟩
      simp [(Instr.wr.inj h).1]
    · rintro ⟨_, h | h | h⟩ <;> simp [(Instr.wr.inj h).1]
    · obtain ⟨h4, h5, h6, h7⟩ : addr ≠ 0x004 ∧ addr ≠ 0x005 ∧ addr ≠ 0x006 ∧ addr ≠ 0x007 := by simpa using hne v
      exact ⟨if_neg h4, if_neg (by tauto)⟩
  · refine ⟨t, hx, ?_, ?_, ?_, ?_, fun _ hf hc => ht.flags_of_ne hf hc⟩
    · rintro ⟨_, rfl⟩; cases hi
    · rintro ⟨_, rfl | rfl | rfl⟩ <;> cases hi
    · rintro rfl; exact ht.fieldInit_flags
    · rintro rfl; exact ht.schemeInit_flags

/-- Settles O55: a host write keeps all these, and only two kinds of ending write `R` or the tables. -/
theorem resultAndTableWriters : Obligations.ResultAndTableWriters := by
  unfold Obligations.ResultAndTableWriters
  intro i s hw
  obtain ⟨addr, v, rfl, hx⟩ | ⟨addr, v, rfl, hx⟩ | ⟨hi, t, hx, ht⟩ := exec_cases s hw
  · exact ⟨_, hx, by simp⟩
  · exact ⟨_, hx, by simp⟩
  · refine ⟨t, hx, by simp [hi], ?_⟩
    cases ht with
    | scalar _ v hs => exact ⟨fun _ => ⟨hs, rfl⟩, fun h => absurd rfl h⟩
    | _ => simp

/-- Settles O56: no ending of a command touches these. -/
theorem commandsKeepHostRegisters : Obligations.CommandsKeepHostRegisters := by
  unfold Obligations.CommandsKeepHostRegisters
  intro i s hi
  obtain ⟨t, hx, ht⟩ := exec_command s hi
  exact ⟨t, hx, by cases ht <;> simp⟩

/-- Settles O57: three endings write a block, which lies in the command's buffer and stops before entry 255. -/
theorem commandsWriteOnlyTheirBuffers : Obligations.CommandsWriteOnlyTheirBuffers := by
  unfold Obligations.CommandsWriteOnlyTheirBuffers
  intro i s x hs hi
  obtain ⟨t, hx, ht⟩ := exec_command s hi
  refine ⟨t, hx, fun hne => ?_⟩
  obtain hm | ⟨base, vs, hm, herr, hlen, hbuf⟩ := ht.mem_cases hs
  · exact absurd (congrArg (Memory.read · x) hm) hne
  · have hblock := Memory.mem_block_of_read_ne hs.mem_wf (hm ▸ hne)
    simp only [cwBase, outBase, xptBase, State.codeLength, State.kNat] at hbuf
    refine ⟨herr, by omega, ?_⟩
    obtain ⟨rfl, rfl, hl⟩ | ⟨rfl, rfl, hl⟩ | ⟨rfl, rfl, hl⟩ := hbuf <;> rw [hl] at hblock <;> simp [hblock]

/-- Settles O9: each register by its value in `State.reset`, each buffer entry since the memory lists no address. -/
theorem resetValues : Obligations.ResetValues := by
  unfold Obligations.ResetValues
  refine ⟨rfl, by decide, rfl, rfl, rfl, rfl, rfl, rfl, rfl, rfl, rfl, rfl, rfl, rfl, rfl, rfl, rfl, fun i _ => ?_⟩
  exact ⟨rfl, rfl, rfl, rfl, rfl, rfl⟩
end
end

section
/-!
PROOFS. The tables of an accepted polynomial (41_field_construction.md R110 to R113, R115) and the points of a valid
scheme (10_state.md R37; 43_evaluation_scheme.md R131, R133, R135).
-/

namespace Sys2Proof.Machine

/-! ## The sequential points, which are also the nonzero bytes in order -/

theorem sequentialPoints_getD {n i : Nat} (h : i < n) : (sequentialPoints n).getD i 0x00 = BitVec.ofNat 8 (i + 1) := by
  simp [sequentialPoints, h]

/-- The point of index `i` has the number `i` + 1, as long as it fits a byte. -/
theorem toNat_sequentialPoint {i : Nat} (h : i < 255) : (BitVec.ofNat 8 (i + 1)).toNat = i + 1 := by
  rw [BitVec.toNat_ofNat, Nat.mod_eq_of_lt (by omega)]

theorem toNat_eq_iff_eq_sequentialPoint {i : Nat} (h : i < 255) (x : Byte) :
    x.toNat = i + 1 ↔ x = BitVec.ofNat 8 (i + 1) := by
  rw [← BitVec.toNat_inj, toNat_sequentialPoint h]

theorem sequentialPoint_ne_zero {i : Nat} (h : i < 255) : BitVec.ofNat 8 (i + 1) ≠ 0x00 := fun h0 => by
  have := (toNat_sequentialPoint h).symm.trans (congrArg BitVec.toNat h0)
  simp at this

theorem sequentialPoint_inj {i j : Nat} (hi : i < 255) (hj : j < 255)
    (h : BitVec.ofNat 8 (i + 1) = BitVec.ofNat 8 (j + 1)) : i = j := by
  have := congrArg BitVec.toNat h
  rw [toNat_sequentialPoint hi, toNat_sequentialPoint hj] at this
  omega

theorem mem_sequentialPoints {x : Byte} : x ∈ sequentialPoints 255 ↔ x ≠ 0x00 := by
  simp only [sequentialPoints, List.mem_map, List.mem_range]
  constructor
  · rintro ⟨i, hi, rfl⟩
    exact sequentialPoint_ne_zero hi
  · intro hx
    have hpos : x.toNat ≠ 0 := fun h0 => hx (BitVec.eq_of_toNat_eq h0)
    have hlt := x.isLt
    exact ⟨x.toNat - 1, by omega, ((toNat_eq_iff_eq_sequentialPoint (by omega) x).mp (by omega)).symm⟩

theorem sequentialPoints_nodup : (sequentialPoints 255).Nodup :=
  List.Nodup.map_on (fun _ hi _ hj => sequentialPoint_inj (List.mem_range.mp hi) (List.mem_range.mp hj))
    List.nodup_range

/-! ## `EXP` -/

@[simp] theorem expCycle_length (exp : Vector Byte 256) : (expCycle exp).length = 255 := by simp [expCycle]

/-- The lookup reads the cycle's entries. -/
theorem expAt_eq_expCycle (T : Tables) {i : Nat} (h : i < 255) :
    expAt T i = (expCycle T.exp)[i]'(by simpa using h) := by
  have hm : i % 256 = i := Nat.mod_eq_of_lt (by omega)
  simp [expCycle, expAt, Vector.get, hm]

/-- The primitivity check says that every nonzero byte occurs (R113). -/
theorem coversGroup_iff (exp : Vector Byte 256) :
    coversGroup exp = true ↔ ∀ x : Byte, x ≠ 0x00 → x ∈ expCycle exp := by
  have h : ∀ i < 255,
      ((expCycle exp).any fun e => e.toNat == i + 1) = true ↔ BitVec.ofNat 8 (i + 1) ∈ expCycle exp := by
    intro i hi
    simp [toNat_eq_iff_eq_sequentialPoint hi]
  simp only [← mem_sequentialPoints, coversGroup, List.all_eq_true, List.mem_range]
  simp only [sequentialPoints, List.forall_mem_map, List.mem_range]
  exact forall₂_congr h

/-- The 255 entries of an accepted cycle are the 255 nonzero bytes, each once: the counting argument of R113. -/
theorem expCycle_perm {exp : Vector Byte 256} (h : coversGroup exp = true) :
    (sequentialPoints 255).Perm (expCycle exp) := by
  have hsub : sequentialPoints 255 ⊆ expCycle exp := fun x hx =>
    (coversGroup_iff exp).mp h x (mem_sequentialPoints.mp hx)
  refine (List.subperm_of_subset sequentialPoints_nodup hsub).perm_of_length_le ?_
  simp [sequentialPoints]

theorem expAt_inj {T : Tables} (h : coversGroup T.exp = true) {i j : Nat} (hi : i < 255) (hj : j < 255)
    (he : expAt T i = expAt T j) : i = j := by
  rw [expAt_eq_expCycle T hi, expAt_eq_expCycle T hj] at he
  exact ((expCycle_perm h).nodup_iff.mp sequentialPoints_nodup).getElem_inj_iff.mp he

theorem expAt_ne_zero {T : Tables} (h : coversGroup T.exp = true) {i : Nat} (hi : i < 255) : expAt T i ≠ 0x00 := by
  rw [expAt_eq_expCycle T hi, ← mem_sequentialPoints, (expCycle_perm h).mem_iff]
  exact List.getElem_mem _

/-- The exponents 0 and 1 of every polynomial (R111). -/
theorem expAt_genTables_zero (poly : Byte) : expAt (genTables poly) 0 = 0x01 := rfl

theorem expAt_genTables_one (poly : Byte) : expAt (genTables poly) 1 = Config.generator := rfl

/-! ## `LOG` -/

theorem genLog_get (exp : Vector Byte 256) {v : Nat} (hv : v < 256) (h0 : v ≠ 0) :
    (genLog exp).get ⟨v, hv⟩ = findExponent exp v := by
  cases v with
  | zero => exact absurd rfl h0
  | succ v =>
    rw [Vector.get_eq_getElem, ← Option.some_inj, ← Vector.getElem?_eq_getElem]
    simp [genLog, show v < 255 by omega]

/-- A nonzero byte has the entry R112 builds for it. -/
theorem logAt_genTables (poly : Byte) {x : Byte} (hx : x ≠ 0x00) :
    logAt (genTables poly) x = findExponent (genExp poly) x.toNat := by
  have hpos : x.toNat ≠ 0 := fun h0 => hx (BitVec.eq_of_toNat_eq h0)
  have hfin : Fin.ofNat 256 x.toNat = ⟨x.toNat, x.isLt⟩ := Fin.ext (Nat.mod_eq_of_lt x.isLt)
  rw [logAt, hfin]
  exact genLog_get _ x.isLt hpos

/-- The search of R112 finds the exponent that produces an element: no earlier one does. -/
theorem findExponent_expAt {T : Tables} (h : coversGroup T.exp = true) {i : Nat} (hi : i < 255) :
    findExponent T.exp (expAt T i).toNat = some (BitVec.ofNat 8 i) := by
  have hfind : (expCycle T.exp).findIdx? (fun e => e.toNat == (expAt T i).toNat) = some i := by
    refine List.findIdx?_eq_some_iff_getElem.mpr ⟨by simpa using hi, ?_, fun j hj => ?_⟩
    · simp [expAt_eq_expCycle T hi]
    · rw [← expAt_eq_expCycle T (by omega)]
      simp only [beq_iff_eq, BitVec.toNat_inj]
      exact fun he => hj.ne (expAt_inj h (by omega) hi he)
  rw [findExponent, hfind, Option.map_some]

section
variable {poly : Byte} (h : coversGroup (genExp poly) = true) {i : Nat} (hi : i < 255)
include h hi

/-- `LOG` inverts `EXP` (R115). -/
theorem logAt_expAt : logAt (genTables poly) (expAt (genTables poly) i) = some (BitVec.ofNat 8 i) := by
  rw [logAt_genTables poly (expAt_ne_zero (T := genTables poly) h hi)]
  exact findExponent_expAt (T := genTables poly) h hi

theorem logExponent_expAt : logExponent (genTables poly) (expAt (genTables poly) i) = i := by
  rw [logExponent, logEntry, logAt_expAt h hi, Option.getD_some, BitVec.toNat_ofNat, Nat.mod_eq_of_lt (by omega)]

/-- The generator is the element of exponent 1, so multiplying by it raises the exponent by 1 (R131). -/
theorem gfMul_generator :
    gfMul (genTables poly) (expAt (genTables poly) i) Config.generator = expAt (genTables poly) ((i + 1) % 255) := by
  have hne := expAt_ne_zero (T := genTables poly) h hi
  have hgen : Config.generator ≠ 0x00 := by decide
  have hlog : logExponent (genTables poly) Config.generator = 1 := by
    rw [← expAt_genTables_one poly]
    exact logExponent_expAt h (by omega)
  rw [gfMul, if_neg (not_or.mpr ⟨hne, hgen⟩), logExponent_expAt h hi, hlog]

end

/-! ## The points of a scheme -/

/-- The geometric points are the successive powers of the generator (R131). -/
theorem geometricPoints_getD {poly : Byte} (h : coversGroup (genExp poly) = true) {n i j : Nat} (hn : i + n ≤ 255)
    (hj : j < n) :
    (geometricPoints (genTables poly) n (expAt (genTables poly) i)).getD j 0x00 = expAt (genTables poly) (i + j) := by
  induction n generalizing i j with
  | zero => omega
  | succ n ih =>
    cases j with
    | zero => rfl
    | succ j =>
      rw [geometricPoints, gfMul_generator h (by omega), Nat.mod_eq_of_lt (by omega), List.getD_cons_succ,
        ih (by omega) (by omega), Nat.add_assoc, Nat.add_comm 1 j]

/-- The points of a valid scheme, entry by entry: powers of the generator, or the numbers from 1 on. -/
theorem Inv.xpt_eq {s : State} (h : Inv s) (hs : s.sv = true) {i : Nat} (hi : i < s.codeLength) :
    s.xpt i = if s.scheme = 0x00 then expAt s.tables i else BitVec.ofNat 8 (i + 1) := by
  obtain ⟨hf, hl, hp⟩ := h.schemeOk hs
  obtain ⟨hc, ht⟩ := h.fieldOk hf
  rw [hp i hi, schemePoints]
  split
  · rw [ht, ← expAt_genTables_zero s.poly, geometricPoints_getD hc (by have := codeLength_le_of_legal hl; omega) hi,
      Nat.zero_add]
  · exact sequentialPoints_getD hi

end Sys2Proof.Machine

section
open Sys2Proof Sys2Proof.Machine

/-- Settles O37: the points are those of `Inv.xpt_eq`, and both kinds are distinct and nonzero up to index 254. -/
theorem pointsOfValidScheme : Obligations.PointsOfValidScheme := by
  unfold Obligations.PointsOfValidScheme
  intro s h hs
  obtain ⟨hf, hl, -⟩ := h.schemeOk hs
  obtain ⟨hc, ht⟩ := h.fieldOk hf
  obtain ⟨hk, hkm, hscheme⟩ := (legalConfiguration_iff s).mp hl
  have hx : ∀ i < s.k.toNat + s.m.toNat,
      s.xpt i = if s.scheme = 0x00 then expAt s.tables i else BitVec.ofNat 8 (i + 1) := fun _ => h.xpt_eq hs
  have hc : coversGroup s.tables.exp = true := ht ▸ hc
  refine ⟨hk, hkm, hscheme, fun i j hi hj hij => ?_, fun i hi => ?_, fun h0 i hi => (hx i hi).trans (if_pos h0)⟩
  · rw [hx i hi, hx j hj] at hij
    split at hij
    · exact expAt_inj hc (by omega) (by omega) hij
    · exact sequentialPoint_inj (by omega) (by omega) hij
  · rw [hx i hi]
    split
    · exact expAt_ne_zero hc (by omega)
    · exact sequentialPoint_ne_zero (by omega)
end
end

section
/-!
PROOFS. The host transactions (20_memory.md R42 to R45, R49, R51): reads and writes by location, where each location
stands in the host space, and from these the statements about `RD` and `WR`.
-/

namespace Sys2Proof.Machine

/-! ## Where the locations stand (20_memory.md R41) -/

/-- The address a location is reached at: the map R41 read backwards. No host address names `unmapped`; it gets the
first number past the host space. -/
def Loc.address : Loc → Nat
  | .cmd => 0x000
  | .status => 0x001
  | .errcode => 0x002
  | .poly => 0x004
  | .k => 0x005
  | .m => 0x006
  | .scheme => 0x007
  | .dlen => 0x008
  | .nsh => 0x009
  | .a => 0x00C
  | .b => 0x00D
  | .el => 0x00E
  | .eh => 0x00F
  | .r => 0x010
  | .data j => dataBase + j.toNat
  | .cw i => cwBase + i.toNat
  | .shpos j => shposBase + j.toNat
  | .shval j => shvalBase + j.toNat
  | .out i => outBase + i.toNat
  | .xpt i => xptBase + i.toNat
  | .unmapped => 0x800

/-- The locations a write stores in (R45 (b) to (e)). -/
def Loc.takesWrite : Loc → Bool
  | .poly | .k | .m | .scheme | .dlen | .nsh | .a | .b | .el | .eh | .data _ | .shpos _ | .shval _ => true
  | .cmd | .status | .errcode | .r | .cw _ | .out _ | .xpt _ | .unmapped => false

theorem address_locOf {addr : Addr} (h : locOf addr ≠ .unmapped) : (locOf addr).address = addr.toNat := by
  revert addr; decide +kernel

theorem takesWrite_locOf (addr : Addr) : (locOf addr).takesWrite = isStorable addr := by
  revert addr; decide +kernel

theorem locOf_eq_unmapped_iff (addr : Addr) : locOf addr = .unmapped ↔ isUnmapped addr = true := by
  revert addr; decide +kernel

/-- Different addresses name different locations, but for the unmapped ones. -/
theorem address_locOf_ne {a b : Addr} (ha : locOf a ≠ .unmapped) (hne : b ≠ a) :
    (locOf b).address ≠ (locOf a).address := by
  rw [address_locOf ha]
  by_cases hb : locOf b = .unmapped
  · have := a.isLt
    simp only [hb, Loc.address]
    omega
  · rw [address_locOf hb]
    exact fun h => hne (BitVec.eq_of_toNat_eq h)

theorem locOf_ne_status {addr : Addr} (h : addr ≠ 0x001) : locOf addr ≠ .status := fun hs =>
  address_locOf_ne (a := 0x001) (by decide) h (congrArg Loc.address hs)

theorem locOf_ne_unmapped_of_buffer {addr : Addr} (h : 0x100 ≤ addr.toNat ∧ addr.toNat < 0x700) :
    locOf addr ≠ .unmapped := by
  rw [Ne, locOf_eq_unmapped_iff]
  simp only [isUnmapped, Bool.or_eq_true, Bool.and_eq_true, beq_iff_eq, decide_eq_true_eq]
  omega

/-! ## Reading a buffer, and writing one -/

/-- A location of a buffer reads as the memory does at its address. -/
theorem readLoc_buffer (s : State) {l : Loc} (h : 0x100 ≤ l.address ∧ l.address < 0x700) :
    s.readLoc l = Memory.read s.mem l.address := by
  cases l with
  | data | cw | shpos | shval | out | xpt => rfl
  | _ => simp [Loc.address] at h

/-- A write to a location of a buffer stores at its address. -/
theorem writeLoc_buffer (s : State) (v : Byte) {l : Loc} (hl : l.takesWrite = true) (h : 0x100 ≤ l.address) :
    s.writeLoc v l = s.store l.address v := by
  cases l with
  | data | shpos | shval => rfl
  | cmd | status | errcode | r | cw | out | xpt | unmapped => cases hl
  | _ => simp [Loc.address] at h

theorem hostRead_buffer (s : State) {addr : Addr} (h : 0x100 ≤ addr.toNat ∧ addr.toNat < 0x700) :
    s.hostRead addr = Memory.read s.mem addr.toNat := by
  have ha := address_locOf (locOf_ne_unmapped_of_buffer h)
  rw [State.hostRead, readLoc_buffer s (ha ▸ h), ha]

theorem hostRead_unmapped (s : State) {addr : Addr} (h : isUnmapped addr = true) : s.hostRead addr = 0x00 := by
  rw [State.hostRead, (locOf_eq_unmapped_iff addr).mpr h, State.readLoc]

theorem writeLoc_locOf_buffer (s : State) (v : Byte) {addr : Addr} (hs : isStorable addr = true)
    (h : 0x100 ≤ addr.toNat ∧ addr.toNat < 0x700) :
    s.writeLoc v (locOf addr) = s.store addr.toNat v := by
  have ha := address_locOf (locOf_ne_unmapped_of_buffer h)
  rw [writeLoc_buffer s v (takesWrite_locOf addr ▸ hs) (ha ▸ h.1), ha]

/-! ## A write, seen through a read and through the same write again -/

theorem writeLoc_of_not_takesWrite (s : State) (v : Byte) {l : Loc} (h : l.takesWrite = false) :
    s.writeLoc v l = s := by
  cases l with
  | cmd | status | errcode | r | cw | out | xpt | unmapped => rfl
  | _ => cases h

theorem readLoc_writeLoc_same {s : State} (hm : Memory.wf s.mem) (v : Byte) {l : Loc} (h : l.takesWrite = true) :
    (s.writeLoc v l).readLoc l = v := by
  cases l with
  | data | shpos | shval => exact Memory.read_write_same hm _ v
  | cmd | status | errcode | r | cw | out | xpt | unmapped => cases h
  | _ => rfl

/-- A write changes the memory at the address of its location at most. -/
theorem read_writeLoc_other {s : State} (hm : Memory.wf s.mem) (v : Byte) {l : Loc} {x : Nat} (hx : x ≠ l.address) :
    Memory.read (s.writeLoc v l).mem x = Memory.read s.mem x := by
  cases l with
  | data | shpos | shval => exact Memory.read_write_other hm v hx
  | _ => rfl

/-- A write to a location leaves every location at another address as it was, but `STATUS`, which shows the flags. -/
theorem readLoc_writeLoc_other {s : State} (hm : Memory.wf s.mem) (v : Byte) {l l' : Loc}
    (hne : l'.address ≠ l.address) (hs : l' ≠ .status) : (s.writeLoc v l).readLoc l' = s.readLoc l' := by
  have hl : l' ≠ l := fun h => hne (congrArg Loc.address h)
  cases l' with
  | status => exact absurd rfl hs
  | data | cw | shpos | shval | out | xpt => exact read_writeLoc_other hm v hne
  | _ => cases l <;> trivial

/-- Storing the reset content below every listed address changes nothing. -/
theorem Memory.write_unlisted_of_lt {mem : Memory} {i : Nat} (h : ∀ c ∈ mem, i < c.1) :
    Memory.write mem i Memory.unlisted = mem := by
  cases mem with
  | nil => rfl
  | cons c rest => simp [Memory.write, h c List.mem_cons_self]

/-- A byte stored twice at one address is stored once. -/
theorem Memory.write_write_same {mem : Memory} (hm : Memory.wf mem) (i : Nat) (v : Byte) :
    Memory.write (Memory.write mem i v) i v = Memory.write mem i v := by
  induction mem with
  | nil => by_cases hv : v = Memory.unlisted <;> simp [Memory.write, hv]
  | cons c rest ih =>
    obtain ⟨x, u⟩ := c
    have hrest : ∀ d ∈ rest, x < d.1 := (List.pairwise_cons.mp hm.1).1
    obtain hlt | rfl | hgt := Nat.lt_trichotomy i x
    · by_cases hv : v = Memory.unlisted <;> simp [Memory.write, hv, hlt]
    · by_cases hv : v = Memory.unlisted
      · simp [Memory.write, hv, Memory.write_unlisted_of_lt hrest]
      · simp [Memory.write, hv]
    · simp [Memory.write, Nat.lt_asymm hgt, Nat.ne_of_gt hgt, ih (Memory.wf_tail hm)]

theorem writeLoc_writeLoc_same {s : State} (hm : Memory.wf s.mem) (v : Byte) (l : Loc) :
    (s.writeLoc v l).writeLoc v l = s.writeLoc v l := by
  cases l with
  | data | shpos | shval => exact congrArg (fun mem => { s with mem := mem }) (Memory.write_write_same hm _ v)
  | _ => rfl

/-! ## `WR` by its address (20_memory.md R45) -/

theorem exec_wr_of_ne (s : State) {addr : Addr} (v : Byte) (h : addr ≠ 0x000) :
    exec (.wr addr v) s = .next (s.writeLoc v (locOf addr)) := if_neg h

theorem exec_wr_cmd (s : State) (v : Byte) : exec (.wr 0x000 v) s = exec (decodeCommand v) s :=
  executeCommand_eq v s

theorem ne_cmd_of_isStorable {addr : Addr} (h : isStorable addr = true) : addr ≠ 0x000 := by
  rintro rfl; cases h

theorem locOf_ne_unmapped_of_isStorable {addr : Addr} (h : isStorable addr = true) : locOf addr ≠ .unmapped := by
  intro hu
  rw [← takesWrite_locOf, hu] at h
  cases h

/-- `CMD` is neither unmapped nor read-only, and no location that takes a write is. -/
theorem not_storable_of_unmapped_or_readOnly {addr : Addr} (h : isUnmapped addr = true ∨ isReadOnly addr = true) :
    addr ≠ 0x000 ∧ isStorable addr = false := by
  revert addr; decide +kernel

/-- The byte written to `CMD` is the command's own byte, and names a command (30_encoding.md R63, R65). -/
theorem decodeCommand_isCommand (v : Byte) :
    isCommand (decodeCommand v) = true ∧ commandByte (decodeCommand v) = v := by
  revert v; decide +kernel

end Sys2Proof.Machine

section
open Sys2Proof Sys2Proof.Machine

/-- Settles O16: the two reads by location; an address other than the one written names another location. -/
theorem readAfterWrite : Obligations.ReadAfterWrite := by
  unfold Obligations.ReadAfterWrite
  intro s addr v hm h
  refine ⟨_, exec_wr_of_ne s v (ne_cmd_of_isStorable h), ?_, fun b hb hst => ?_⟩
  · exact readLoc_writeLoc_same hm v (takesWrite_locOf addr ▸ h)
  · exact readLoc_writeLoc_other hm v (address_locOf_ne (locOf_ne_unmapped_of_isStorable h) hb) (locOf_ne_status hst)

/-- Settles O17: registers are overwritten by the same byte, and `Memory.write_write_same` says it of the buffers. -/
theorem repeatedWriteEqualsOne : Obligations.RepeatedWriteEqualsOne := by
  unfold Obligations.RepeatedWriteEqualsOne
  intro s addr v hm h
  refine ⟨_, exec_wr_of_ne s v h, ?_⟩
  rw [exec_wr_of_ne _ v h, writeLoc_writeLoc_same hm]

/-- Settles O6: the fetch gives the decoded instruction and the state with the event taken. -/
theorem stepRunsDecodedTransaction : Obligations.StepRunsDecodedTransaction := by
  unfold Obligations.StepRunsDecodedTransaction
  intro s w rest i hp hd
  rw [step, fetch_instr hp hd]
  rfl

/-- Settles O13: each of the fourteen registers at its address, the buffers by `hostRead_buffer`, and what is left is
unmapped. -/
theorem readReturnsLocation : Obligations.ReadReturnsLocation := by
  unfold Obligations.ReadReturnsLocation
  intro s addr
  refine congrArg (fun v => Host.Outcome.next (s.returnByte v)) (Eq.symm ?_)
  iterate 14 refine ite_eq_iff'.mpr ⟨by rintro rfl; rfl, fun _ => ?_⟩
  refine ite_eq_iff'.mpr ⟨fun h => (hostRead_buffer s h).symm, fun _ => (hostRead_unmapped s ?_).symm⟩
  simp only [isUnmapped, Bool.or_eq_true, Bool.and_eq_true, beq_iff_eq, decide_eq_true_eq]
  bv_omega

/-- Settles O14: each of the ten registers at its address, the buffers by `writeLoc_locOf_buffer`, and what is left
takes no write; a write to `CMD` runs the command its byte decodes to, which latches that byte. -/
theorem writeEffectByAddress : Obligations.WriteEffectByAddress := by
  unfold Obligations.WriteEffectByAddress
  refine ⟨fun s addr v h0 => ?_, fun s v c hc => ?_⟩
  · rw [exec_wr_of_ne s v h0]
    refine congrArg Host.Outcome.next (Eq.symm ?_)
    iterate 10 refine ite_eq_iff'.mpr ⟨by rintro rfl; rfl, fun _ => ?_⟩
    refine ite_eq_iff'.mpr ⟨fun h => (writeLoc_locOf_buffer s v ?_ (by omega)).symm,
      fun _ => (writeLoc_of_not_takesWrite s v ?_).symm⟩
    · simp only [isStorable, Bool.or_eq_true, Bool.and_eq_true, decide_eq_true_eq]
      omega
    · rw [takesWrite_locOf, Bool.eq_false_iff]
      simp only [isStorable, Ne, Bool.or_eq_true, Bool.and_eq_true, decide_eq_true_eq]
      bv_omega
  · cases (decode_commandWord v).symm.trans hc
    obtain ⟨hcmd, hbyte⟩ := decodeCommand_isCommand v
    obtain ⟨t, hx, ht⟩ := exec_command s hcmd
    exact ⟨t, (exec_wr_cmd s v).trans hx, hx, ht.cmd_eq.trans hbyte⟩

/-- Settles O15: an unmapped location reads 0x00, and the locations of both kinds take no write. -/
theorem unmappedAndReadOnly : Obligations.UnmappedAndReadOnly := by
  unfold Obligations.UnmappedAndReadOnly
  refine ⟨fun s addr h => ?_, fun s addr v h => ?_⟩
  · exact congrArg (fun v => Host.Outcome.next (s.returnByte v)) (hostRead_unmapped s h)
  · obtain ⟨h0, hst⟩ := not_storable_of_unmapped_or_readOnly h
    rw [exec_wr_of_ne s v h0, writeLoc_of_not_takesWrite s v ((takesWrite_locOf addr).trans hst)]
end
end

section
/-!
PROOFS. Encoding (30_encoding.md): the transaction words by their three fields, the decoder's cases, and the rows of
the opcode table, each told by what it asks of the fields; from these the statements about decoding.
-/

namespace Sys2Proof

/-! ## The fields of a word (R60) -/

section
variable (b : Bool) (addr : Addr) (data : Byte)

@[simp] theorem txnIsWrite_txnWord : txnIsWrite (txnWord b addr data) = b := by
  simp only [txnIsWrite, txnWord, BitVec.getLsbD_append]
  simp

@[simp] theorem txnAddr_txnWord : txnAddr (txnWord b addr data) = addr := by
  rw [txnAddr, txnWord, BitVec.extractLsb'_append_eq_of_le (by decide)]
  exact BitVec.extractLsb'_append_eq_right

@[simp] theorem txnData_txnWord : txnData (txnWord b addr data) = data := BitVec.extractLsb'_append_eq_right

end

/-- The three fields make up the word. -/
theorem txnWord_fields (w : Txn) : txnWord (txnIsWrite w) (txnAddr w) (txnData w) = w := by
  have hW : BitVec.ofBool (w.getLsbD 19) = w.extractLsb' 19 1 := by
    ext i hi
    simp [show i = 0 by omega]
  have hWA : w.extractLsb' 19 1 ++ w.extractLsb' 8 11 = w.extractLsb' 8 12 :=
    BitVec.extractLsb'_append_extractLsb'_eq_extractLsb' rfl
  have hWAD : w.extractLsb' 8 12 ++ w.extractLsb' 0 8 = w.extractLsb' 0 20 :=
    BitVec.extractLsb'_append_extractLsb'_eq_extractLsb' rfl
  rw [txnWord, txnIsWrite, txnAddr, txnData, hW, hWA, hWAD]
  exact BitVec.extractLsb'_eq_self

theorem txnWord_inj {b b' : Bool} {addr addr' : Addr} {data data' : Byte} :
    txnWord b addr data = txnWord b' addr' data' ↔ b = b' ∧ addr = addr' ∧ data = data' := by
  refine ⟨fun h => ⟨?_, ?_, ?_⟩, by rintro ⟨rfl, rfl, rfl⟩; rfl⟩
  · simpa using congrArg txnIsWrite h
  · simpa using congrArg txnAddr h
  · simpa using congrArg txnData h

/-- A mask acts on each field by itself. -/
theorem txnWord_and (b b' : Bool) (addr addr' : Addr) (data data' : Byte) :
    txnWord b addr data &&& txnWord b' addr' data' = txnWord (b && b') (addr &&& addr') (data &&& data') := by
  show BitVec.ofBool b ++ addr ++ data &&& BitVec.ofBool b' ++ addr' ++ data' = _
  rw [BitVec.and_append, BitVec.and_append, BitVec.ofBool_and_ofBool, txnWord]

/-! ## The opcode map (R63, R65) -/

theorem encode_decodeCommand (data : Byte) : encode (decodeCommand data) = commandWord data := by
  revert data; decide +kernel

theorem wf_decodeCommand (data : Byte) : (decodeCommand data).wf = true := by
  revert data; decide +kernel

theorem decodeCommand_of_not_mem {data : Byte} (h : data ∉ opcodes) : decodeCommand data = .illegal data := by
  revert data; decide +kernel

/-- The 243 bytes that R65 lists as no command are those outside the opcode map. -/
theorem not_mem_opcodes_iff (data : Byte) :
    data ∉ opcodes ↔ (0x05 ≤ data.toNat ∧ data.toNat ≤ 0x07) ∨ 0x10 ≤ data.toNat := by
  revert data; decide +kernel

/-! ## The decoding procedure (R67) -/

/-- What the decoding procedure answers for a word, by the word's fields. -/
inductive Decoding : Txn → Except DecodeError Instr → Prop where
  | rd (addr : Addr) : Decoding (txnWord false addr 0x00) (.ok (.rd addr))
  | readWithData (addr : Addr) {data : Byte} (h : data ≠ 0x00) :
      Decoding (txnWord false addr data) (.error (.readWithData data))
  | wr {addr : Addr} (h : addr ≠ 0x000) (data : Byte) : Decoding (txnWord true addr data) (.ok (.wr addr data))
  | command (data : Byte) : Decoding (commandWord data) (.ok (decodeCommand data))

theorem Decoding.decode_eq {w : Txn} {r : Except DecodeError Instr} (h : Decoding w r) : decode w = r := by
  cases h with
  | rd addr => simp [decode]
  | readWithData addr h => simpa [decode] using h
  | wr h data =>
    rw [decode, txnIsWrite_txnWord, txnAddr_txnWord, txnData_txnWord, if_pos rfl, if_neg h]
  | command data => exact Machine.decode_commandWord data

theorem decoding_decode (w : Txn) : Decoding w (decode w) := by
  have key : ∃ r, Decoding w r := by
    rw [← txnWord_fields w]
    generalize txnIsWrite w = b, txnAddr w = addr, txnData w = data
    cases b with
    | false =>
      by_cases h : data = 0x00
      · exact h ▸ ⟨_, .rd addr⟩
      · exact ⟨_, .readWithData addr h⟩
    | true =>
      by_cases h : addr = 0x000
      · exact h ▸ ⟨_, .command data⟩
      · exact ⟨_, .wr h data⟩
  obtain ⟨r, h⟩ := key
  exact h.decode_eq ▸ h

/-! ## The rows of the opcode table (R62) -/

/-- The word belongs to the row: under the row's mask it equals the row's pattern. -/
def OpcodeRow.Matches (row : OpcodeRow) (w : Txn) : Prop := w &&& row.mask = row.pattern

/-- The table: the two generic rows, the row of each opcode, the fallback row. -/
theorem opcodeTable_eq :
    opcodeTable = [rowRd, rowWr] ++ opcodes.map (fun op => rowOf (decodeCommand op)) ++ [rowIllegal] := by
  decide

theorem mem_opcodeTable {row : OpcodeRow} : row ∈ opcodeTable ↔
    row = rowRd ∨ row = rowWr ∨ (∃ op ∈ opcodes, row = rowOf (decodeCommand op)) ∨ row = rowIllegal := by
  simp [opcodeTable_eq, eq_comm]

/-- The row of a command spells the command's word and no other. -/
theorem rowOf_opcode {op : Byte} (h : op ∈ opcodes) :
    (rowOf (decodeCommand op)).pattern = commandWord op ∧
      (rowOf (decodeCommand op)).mask = txnWord true (.allOnes 11) (.allOnes 8) := by
  revert op; decide +kernel

theorem rowOf_decodeCommand_of_not_mem {data : Byte} (h : data ∉ opcodes) :
    rowOf (decodeCommand data) = rowIllegal := by
  rw [decodeCommand_of_not_mem h, rowOf]

section
variable {b : Bool} {addr : Addr} {data : Byte}

theorem rowRd_matches : rowRd.Matches (txnWord b addr data) ↔ b = false ∧ data = 0x00 := by
  have hm : rowRd.mask = txnWord true 0x000 (.allOnes 8) := by decide
  have hp : rowRd.pattern = txnWord false 0x000 0x00 := by decide
  rw [OpcodeRow.Matches, hm, hp, txnWord_and, BitVec.and_allOnes, txnWord_inj]
  simp

theorem rowWr_matches : rowWr.Matches (txnWord b addr data) ↔ b = true := by
  have hm : rowWr.mask = txnWord true 0x000 0x00 := by decide
  have hp : rowWr.pattern = txnWord true 0x000 0x00 := by decide
  rw [OpcodeRow.Matches, hm, hp, txnWord_and, txnWord_inj]
  simp

theorem rowIllegal_matches : rowIllegal.Matches (txnWord b addr data) ↔ b = true ∧ addr = 0x000 := by
  have hm : rowIllegal.mask = txnWord true (.allOnes 11) 0x00 := by decide
  have hp : rowIllegal.pattern = txnWord true 0x000 0x00 := by decide
  rw [OpcodeRow.Matches, hm, hp, txnWord_and, BitVec.and_allOnes, txnWord_inj]
  simp

theorem rowOf_opcode_matches {op : Byte} (h : op ∈ opcodes) :
    (rowOf (decodeCommand op)).Matches (txnWord b addr data) ↔ b = true ∧ addr = 0x000 ∧ data = op := by
  obtain ⟨hp, hm⟩ := rowOf_opcode h
  rw [OpcodeRow.Matches, hm, hp, commandWord, txnWord_and, BitVec.and_allOnes, BitVec.and_allOnes, txnWord_inj]
  simp

/-- The rows of the table that a word can belong to. -/
theorem matching_row {row : OpcodeRow} (hrow : row ∈ opcodeTable) (hm : row.Matches (txnWord b addr data)) :
    (b = false ∧ row = rowRd) ∨ (b = true ∧ row = rowWr) ∨
      (b = true ∧ addr = 0x000 ∧ (row = rowIllegal ∨ row = rowOf (decodeCommand data))) := by
  obtain rfl | rfl | ⟨op, hop, rfl⟩ | rfl := mem_opcodeTable.mp hrow
  · exact .inl ⟨(rowRd_matches.mp hm).1, rfl⟩
  · exact .inr (.inl ⟨rowWr_matches.mp hm, rfl⟩)
  · obtain ⟨hb, ha, rfl⟩ := (rowOf_opcode_matches hop).mp hm
    exact .inr (.inr ⟨hb, ha, .inr rfl⟩)
  · obtain ⟨hb, ha⟩ := rowIllegal_matches.mp hm
    exact .inr (.inr ⟨hb, ha, .inl rfl⟩)

end

/-! The row of the command a byte names: an opcode's own row, or the fallback row. -/

theorem rowOf_decodeCommand_matches (data : Byte) : (rowOf (decodeCommand data)).Matches (commandWord data) := by
  by_cases h : data ∈ opcodes
  · exact (rowOf_opcode_matches h).mpr ⟨rfl, rfl, rfl⟩
  · rw [rowOf_decodeCommand_of_not_mem h]
    exact rowIllegal_matches.mpr ⟨rfl, rfl⟩

theorem rowIllegal_eq_or_mask_lt (data : Byte) :
    rowIllegal = rowOf (decodeCommand data) ∨ rowIllegal.mask.toNat < (rowOf (decodeCommand data)).mask.toNat := by
  by_cases h : data ∈ opcodes
  · rw [(rowOf_opcode h).2]
    exact .inr (by decide)
  · exact .inl (rowOf_decodeCommand_of_not_mem h).symm

theorem rowWr_mask_lt (data : Byte) : rowWr.mask.toNat < (rowOf (decodeCommand data)).mask.toNat := by
  have hlt : rowWr.mask.toNat < rowIllegal.mask.toNat := by decide
  obtain h | h := rowIllegal_eq_or_mask_lt data
  · exact h ▸ hlt
  · exact hlt.trans h

end Sys2Proof

section
open Sys2Proof

/-- Settles O1: the word's fields are those of the transaction, and a command's byte names the command. -/
theorem decodeOfEncodeIsIdentity : Obligations.DecodeOfEncodeIsIdentity := by
  unfold Obligations.DecodeOfEncodeIsIdentity
  intro i hi
  cases i with
  | rd addr => exact (Decoding.rd addr).decode_eq
  | wr addr data => exact (Decoding.wr (by simpa [Instr.wf] using hi) data).decode_eq
  | illegal data =>
    have hd : data ∉ opcodes := by simpa [Instr.wf] using hi
    rw [← decodeCommand_of_not_mem hd, encode_decodeCommand]
    exact (Decoding.command data).decode_eq
  | nop | fieldInit | schemeInit | encode | reconstruct | add | sub | mul | div | pow | inv | exp | log =>
    exact (Decoding.command _).decode_eq

/-- Settles O2, by the cases of the decoding procedure: `Decoding.readWithData` is the only one that rejects. -/
theorem encodeOfDecodeIsIdentity : Obligations.EncodeOfDecodeIsIdentity := by
  unfold Obligations.EncodeOfDecodeIsIdentity
  intro w
  change (txnIsWrite w = false ∧ txnData w ≠ 0x00 → _) ∧ (¬(txnIsWrite w = false ∧ txnData w ≠ 0x00) → _)
  have hw := decoding_decode w
  generalize decode w = r at hw ⊢
  cases hw with
  | rd addr => exact ⟨fun h => absurd (txnData_txnWord ..) h.2, fun _ => ⟨_, rfl, rfl, rfl⟩⟩
  | readWithData addr hne => exact ⟨fun _ => ⟨_, rfl⟩, fun h => absurd ⟨txnIsWrite_txnWord .., by simpa using hne⟩ h⟩
  | wr hne data => exact ⟨fun h => by simp at h, fun _ => ⟨_, rfl, by simpa [Instr.wf] using hne, rfl⟩⟩
  | command data =>
    exact ⟨fun h => by simp [commandWord] at h, fun _ => ⟨_, rfl, wf_decodeCommand data, encode_decodeCommand data⟩⟩

/-- Settles O5: a word's fields say which rows it matches, and among these the generic `WR`, the fallback row and the
command's row have ever larger masks. -/
theorem largestMatchingRowWins : Obligations.LargestMatchingRowWins := by
  unfold Obligations.LargestMatchingRowWins
  intro w i hd
  have hw := decoding_decode w
  rw [hd] at hw
  change (rowOf i).Matches w ∧ ∀ row ∈ opcodeTable, row.Matches w → _
  cases hw with
  | rd addr =>
    refine ⟨rowRd_matches.mpr ⟨rfl, rfl⟩, fun row hrow hm => ?_⟩
    obtain ⟨-, rfl⟩ | ⟨hb, -⟩ | ⟨hb, -⟩ := matching_row hrow hm
    · exact .inl rfl
    · cases hb
    · cases hb
  | wr hne data =>
    refine ⟨rowWr_matches.mpr rfl, fun row hrow hm => ?_⟩
    obtain ⟨hb, -⟩ | ⟨-, rfl⟩ | ⟨-, h0, -⟩ := matching_row hrow hm
    · cases hb
    · exact .inl rfl
    · exact absurd h0 hne
  | command data =>
    refine ⟨rowOf_decodeCommand_matches data, fun row hrow hm => ?_⟩
    obtain ⟨hb, -⟩ | ⟨-, rfl⟩ | ⟨-, -, rfl | rfl⟩ := matching_row hrow hm
    · cases hb
    · exact .inr (rowWr_mask_lt data)
    · exact rowIllegal_eq_or_mask_lt data
    · exact .inl rfl

/-- Settles O3: the fields are those of `txnWord`, and the byte in `CMD` is looked up in the opcode map. -/
theorem wordFieldsAndOpcodeMap : Obligations.WordFieldsAndOpcodeMap := by
  unfold Obligations.WordFieldsAndOpcodeMap
  refine ⟨fun addr => (Decoding.rd addr).decode_eq, fun addr data h => ⟨_, (Decoding.readWithData addr h).decode_eq⟩,
    fun addr data h => (Decoding.wr h data).decode_eq, ?_⟩
  iterate 13 refine ⟨by decide, ?_⟩
  refine ⟨fun data h => ?_, by decide⟩
  rw [← decodeCommand_of_not_mem ((not_mem_opcodes_iff data).mpr h)]
  exact (Decoding.command data).decode_eq

/-- Settles O4, by running the decoder on the seven words. -/
theorem exampleWordsDecode : Obligations.ExampleWordsDecode := by
  unfold Obligations.ExampleWordsDecode
  decide
end
end

section
/-!
PROOFS. The field while `FV` = 1 (40_field_arithmetic.md R81 to R86, R100, R102): doubling is linear and cycles through
the nonzero bytes, every nonzero byte is a power of the generator, and the field functions act on exponents modulo 255.
From these the field laws.
-/

namespace Sys2Proof.Machine

/-! ## Doubling (41_field_construction.md R111) -/

section
variable (poly : Byte)

theorem double_zero : double poly 0x00 = 0x00 := by simp [double]

theorem double_xor (p q : Byte) : double poly (p ^^^ q) = double poly p ^^^ double poly q := by
  unfold double
  rw [BitVec.getLsbD_xor, BitVec.shiftLeft_xor_distrib]
  cases p.getLsbD 7 <;> cases q.getLsbD 7
  · rfl
  · exact BitVec.xor_assoc ..
  · show (p <<< 1 ^^^ q <<< 1) ^^^ poly = (p <<< 1 ^^^ poly) ^^^ q <<< 1
    ac_rfl
  · show p <<< 1 ^^^ q <<< 1 = (p <<< 1 ^^^ poly) ^^^ (q <<< 1 ^^^ poly)
    have hswap : (p <<< 1 ^^^ poly) ^^^ (q <<< 1 ^^^ poly) = (p <<< 1 ^^^ q <<< 1) ^^^ (poly ^^^ poly) := by ac_rfl
    rw [hswap, BitVec.xor_self, BitVec.xor_zero]

theorem iterate_double_zero (n : Nat) : (double poly)^[n] 0x00 = 0x00 := Function.iterate_fixed (double_zero poly) n

theorem iterate_double_xor (n : Nat) (p q : Byte) :
    (double poly)^[n] (p ^^^ q) = (double poly)^[n] p ^^^ (double poly)^[n] q := by
  induction n with
  | zero => rfl
  | succ n ih => simp only [Function.iterate_succ_apply', ih, double_xor]

/-- The lowest bit of a double comes from the polynomial alone. -/
theorem double_getLsbD_zero (p : Byte) : (double poly p).getLsbD 0 = (p.getLsbD 7 && poly.getLsbD 0) := by
  unfold double
  cases p.getLsbD 7 <;> simp

variable {poly}

/-- An odd polynomial leaves its own bit where the top bit was, so only zero doubles to zero. -/
theorem double_eq_zero (hp : poly.getLsbD 0 = true) {p : Byte} (h : double poly p = 0x00) : p = 0x00 := by
  have htop : p.getLsbD 7 = false := by
    have hbit := double_getLsbD_zero poly p
    rw [h, hp, Bool.and_true] at hbit
    exact hbit.symm
  have hshift : p <<< 1 = 0x00 := by
    rw [double, htop] at h
    exact h
  refine BitVec.eq_of_getLsbD_eq fun i hi => ?_
  obtain rfl | hlt : i = 7 ∨ i < 7 := by omega
  · exact htop
  · have := congrArg (BitVec.getLsbD · (i + 1)) hshift
    rw [BitVec.getLsbD_shiftLeft] at this
    simpa [show i + 1 < 8 by omega, -BitVec.getLsbD_eq_getElem] using this

theorem double_injective (hp : poly.getLsbD 0 = true) : Function.Injective (double poly) := fun p q h => by
  have h0 : double poly (p ^^^ q) = 0x00 := (double_xor poly p q).trans (h ▸ BitVec.xor_self)
  exact BitVec.xor_eq_zero_iff.mp (double_eq_zero hp h0)

end

theorem doublings_getElem (poly : Byte) (n : Nat) (e : Byte) {i : Nat} (hi : i < (doublings poly n e).length) :
    (doublings poly n e)[i] = (double poly)^[i] e := by
  induction n generalizing e i with
  | zero => simp [doublings] at hi
  | succ n ih =>
    cases i with
    | zero => rfl
    | succ i => exact ih (double poly e) _

/-- The exponent table holds the successive doubles of 0x01. -/
theorem expAt_genTables (poly : Byte) {i : Nat} (hi : i < 255) :
    expAt (genTables poly) i = (double poly)^[i] 0x01 := by
  rw [expAt_eq_expCycle _ hi, ← doublings_getElem poly 255 0x01 (by simpa [doublings_length] using hi)]
  simp [expCycle, genTables, genExp, doublings_length]

theorem expAt_genTables_succ (poly : Byte) {i : Nat} (hi : i < 254) :
    expAt (genTables poly) (i + 1) = double poly (expAt (genTables poly) i) := by
  rw [expAt_genTables poly (by omega), expAt_genTables poly (by omega), Function.iterate_succ_apply']

/-! ## The powers of the generator -/

/-- The element of exponent `e`, for any integer, as R102 writes it: `EXP[e mod 255]`. -/
def power (T : Tables) (e : Int) : Byte := expAt T (e % 255).toNat

theorem power_congr (T : Tables) {e f : Int} (h : e % 255 = f % 255) : power T e = power T f := by
  rw [power, power, h]

theorem power_natCast (T : Tables) (n : Nat) : power T n = expAt T (n % 255) := rfl

theorem power_zero (poly : Byte) : power (genTables poly) 0 = 0x01 := rfl

theorem power_one (poly : Byte) : power (genTables poly) 1 = 0x02 := rfl

section
variable {poly : Byte} (h : coversGroup (genExp poly) = true)
include h

/-- Every nonzero byte is in the table (R113). -/
theorem exists_expAt {x : Byte} (hx : x ≠ 0x00) : ∃ i < 255, x = expAt (genTables poly) i := by
  obtain ⟨i, hi, he⟩ := List.getElem_of_mem ((coversGroup_iff _).mp h x hx)
  have hi : i < 255 := by simpa using hi
  exact ⟨i, hi, he.symm.trans (expAt_eq_expCycle (genTables poly) hi).symm⟩

/-- An accepted polynomial is odd: otherwise every double would be even, and 0x03 would not occur. -/
theorem poly_odd : poly.getLsbD 0 = true := by
  obtain ⟨i, hi, he⟩ := exists_expAt h (x := 0x03) (by decide)
  cases i with
  | zero => simp [expAt_genTables_zero] at he
  | succ i =>
    rw [expAt_genTables_succ poly (by omega)] at he
    have hbit := (double_getLsbD_zero poly _).symm.trans (congrArg (BitVec.getLsbD · 0) he).symm
    simp only [Bool.and_eq_true, show (0x03 : Byte).getLsbD 0 = true by decide] at hbit
    exact hbit.2

/-- The doubling sequence closes: the double of the last element is the first, since every other element is the double
of an earlier one. -/
theorem double_expAt_last : double poly (expAt (genTables poly) 254) = expAt (genTables poly) 0 := by
  have hcover : coversGroup (genTables poly).exp = true := h
  have hne : double poly (expAt (genTables poly) 254) ≠ 0x00 := fun h0 =>
    expAt_ne_zero hcover (by omega) (double_eq_zero (poly_odd h) h0)
  obtain ⟨i, hi, he⟩ := exists_expAt h hne
  cases i with
  | zero => exact he
  | succ i =>
    rw [expAt_genTables_succ poly (i := i) (by omega)] at he
    have hlast := double_injective (poly_odd h) he
    have := expAt_inj hcover (by omega) (by omega) hlast
    omega

theorem power_ne_zero (e : Int) : power (genTables poly) e ≠ 0x00 :=
  expAt_ne_zero (T := genTables poly) h (by omega)

theorem exists_power {x : Byte} (hx : x ≠ 0x00) : ∃ n : Nat, x = power (genTables poly) n := by
  obtain ⟨i, hi, rfl⟩ := exists_expAt h hx
  exact ⟨i, by rw [power_natCast, Nat.mod_eq_of_lt hi]⟩

/-- The logarithm of a power is its exponent modulo 255. -/
theorem logExponent_power (e : Int) : (logExponent (genTables poly) (power (genTables poly) e) : Int) = e % 255 := by
  rw [power, logExponent_expAt h (by omega)]
  omega

theorem double_power (e : Int) : double poly (power (genTables poly) e) = power (genTables poly) (e + 1) := by
  obtain hlt | hlast : e % 255 < 254 ∨ e % 255 = 254 := by omega
  · rw [power, power, ← expAt_genTables_succ poly (by omega)]
    congr 1
    omega
  · rw [power, power, show (e % 255).toNat = 254 by omega, show ((e + 1) % 255).toNat = 0 by omega,
      double_expAt_last h]

theorem iterate_double_power (e : Int) (n : Nat) :
    (double poly)^[n] (power (genTables poly) e) = power (genTables poly) (e + n) := by
  induction n with
  | zero => simp
  | succ n ih => rw [Function.iterate_succ_apply', ih, double_power h]; congr 1; push_cast; omega

end

/-! ## The field functions, case by case (40_field_arithmetic.md R82 to R86) -/

section
variable (T : Tables) {a b : Byte}

theorem gfMul_zero_left (b : Byte) : gfMul T 0x00 b = 0x00 := if_pos (.inl rfl)

theorem gfMul_zero_right (a : Byte) : gfMul T a 0x00 = 0x00 := if_pos (.inr rfl)

theorem gfMul_of_ne_zero (ha : a ≠ 0x00) (hb : b ≠ 0x00) :
    gfMul T a b = expAt T ((logExponent T a + logExponent T b) % 255) := if_neg (not_or.mpr ⟨ha, hb⟩)

/-- Zero by anything is zero, zero by zero included (log entry 6). -/
theorem gfDiv_zero_left (b : Byte) : gfDiv T 0x00 b = .ok 0x00 := if_pos ⟨rfl, .inr rfl⟩

theorem gfDiv_zero_right (ha : a ≠ 0x00) : gfDiv T a 0x00 = .error .divisionByZero := by
  rw [gfDiv, if_neg (ha ·.1), if_pos rfl]

theorem gfDiv_of_ne_zero (ha : a ≠ 0x00) (hb : b ≠ 0x00) :
    gfDiv T a b = .ok (power T ((logExponent T a : Int) - logExponent T b)) := by
  rw [gfDiv, if_neg (ha ·.1), if_neg hb, power]

theorem gfPow_exponent_zero (a : Byte) : gfPow T a 0 = 0x01 := if_pos rfl

theorem gfPow_zero {e : Int} (he : e ≠ 0) : gfPow T 0x00 e = 0x00 := by rw [gfPow, if_neg he, if_pos rfl]

theorem gfPow_of_ne_zero {e : Int} (he : e ≠ 0) (ha : a ≠ 0x00) :
    gfPow T a e = power T (logExponent T a * e) := by rw [gfPow, if_neg he, if_neg ha, power]

theorem gfInv_zero : gfInv T 0x00 = .error .zeroHasNoInverse := if_pos rfl

theorem gfInv_of_ne_zero (ha : a ≠ 0x00) : gfInv T a = .ok (expAt T (255 - logExponent T a)) := if_neg ha

theorem gfLog_zero : gfLog T 0x00 = .error .logOfZero := if_pos rfl

theorem gfLog_of_ne_zero (ha : a ≠ 0x00) : gfLog T a = .ok (logEntry T a) := if_neg ha

theorem gfMul_comm (a b : Byte) : gfMul T a b = gfMul T b a := by simp only [gfMul, or_comm, Nat.add_comm]

end

/-! ## The field functions act on exponents -/

section
variable {poly : Byte} (h : coversGroup (genExp poly) = true)
include h

theorem gfMul_power (e f : Int) :
    gfMul (genTables poly) (power (genTables poly) e) (power (genTables poly) f) = power (genTables poly) (e + f) := by
  rw [gfMul_of_ne_zero _ (power_ne_zero h e) (power_ne_zero h f), ← power_natCast]
  refine power_congr _ ?_
  rw [Nat.cast_add, logExponent_power h, logExponent_power h]
  omega

theorem gfDiv_power (e f : Int) :
    gfDiv (genTables poly) (power (genTables poly) e) (power (genTables poly) f) =
      .ok (power (genTables poly) (e - f)) := by
  rw [gfDiv_of_ne_zero _ (power_ne_zero h e) (power_ne_zero h f), logExponent_power h, logExponent_power h]
  exact congrArg _ (power_congr _ (by omega))

theorem gfPow_power (e n : Int) :
    gfPow (genTables poly) (power (genTables poly) e) n = power (genTables poly) (e * n) := by
  obtain rfl | hn := eq_or_ne n 0
  · rw [gfPow_exponent_zero, mul_zero, power_zero]
  · rw [gfPow_of_ne_zero _ hn (power_ne_zero h e), logExponent_power h]
    exact power_congr _ ((Int.mod_modEq e 255).mul_right n)

/-- The index 255 minus the logarithm is taken as it is: the table repeats exponent 0 at 255. -/
theorem gfInv_power (e : Int) :
    gfInv (genTables poly) (power (genTables poly) e) = .ok (power (genTables poly) (-e)) := by
  have hlog := logExponent_power h e
  rw [gfInv_of_ne_zero _ (power_ne_zero h e)]
  congr 1
  obtain h0 | hpos : e % 255 = 0 ∨ 0 < e % 255 := by omega
  · rw [power_congr _ (show -e % 255 = 0 % 255 by omega), show logExponent _ _ = 0 by omega]
    rfl
  · show expAt _ _ = expAt _ _
    congr 1
    omega

/-- Multiplying by the power `n` of the generator is doubling `n` times. -/
theorem gfMul_power_right (a : Byte) (n : Nat) :
    gfMul (genTables poly) a (power (genTables poly) n) = (double poly)^[n] a := by
  obtain rfl | ha := eq_or_ne a 0x00
  · rw [gfMul_zero_left, iterate_double_zero]
  · obtain ⟨m, rfl⟩ := exists_power h ha
    rw [gfMul_power h, iterate_double_power h]

/-! ## The field laws (40_field_arithmetic.md R100) -/

theorem gfMul_one (a : Byte) : gfMul (genTables poly) a 0x01 = a := gfMul_power_right h a 0

theorem gfMul_assoc (a b c : Byte) :
    gfMul (genTables poly) (gfMul (genTables poly) a b) c = gfMul (genTables poly) a (gfMul (genTables poly) b c) := by
  obtain rfl | ha := eq_or_ne a 0x00
  · simp only [gfMul_zero_left]
  obtain rfl | hb := eq_or_ne b 0x00
  · rw [gfMul_zero_left, gfMul_zero_right, gfMul_zero_left]
  obtain rfl | hc := eq_or_ne c 0x00
  · simp only [gfMul_zero_right]
  obtain ⟨i, rfl⟩ := exists_power h ha
  obtain ⟨j, rfl⟩ := exists_power h hb
  obtain ⟨k, rfl⟩ := exists_power h hc
  simp only [gfMul_power h, Int.add_assoc]

/-- Multiplication distributes over XOR because doubling is linear. -/
theorem gfAdd_gfMul (a b c : Byte) :
    gfMul (genTables poly) (gfAdd a b) c = gfAdd (gfMul (genTables poly) a c) (gfMul (genTables poly) b c) := by
  obtain rfl | hc := eq_or_ne c 0x00
  · simp only [gfMul_zero_right]
    rfl
  · obtain ⟨n, rfl⟩ := exists_power h hc
    simp only [gfMul_power_right h, gfAdd, iterate_double_xor]

theorem gfMul_gfInv {a : Byte} (ha : a ≠ 0x00) :
    ∃ b, gfInv (genTables poly) a = .ok b ∧ gfMul (genTables poly) a b = 0x01 := by
  obtain ⟨n, rfl⟩ := exists_power h ha
  exact ⟨_, gfInv_power h n, by rw [gfMul_power h, add_neg_cancel, power_zero]⟩

/-! ## The logarithm of a nonzero element (R86) -/

theorem exists_logAt {x : Byte} (hx : x ≠ 0x00) : ∃ l : Byte, logAt (genTables poly) x = some l ∧ l.toNat ≤ 254 := by
  obtain ⟨i, hi, rfl⟩ := exists_expAt h hx
  exact ⟨_, logAt_expAt h hi, by rw [BitVec.toNat_ofNat]; omega⟩

end

theorem logEntry_of_logAt {T : Tables} {x l : Byte} (h : logAt T x = some l) : logEntry T x = l := by
  rw [logEntry, h, Option.getD_some]

theorem logExponent_of_logAt {T : Tables} {x l : Byte} (h : logAt T x = some l) : logExponent T x = l.toNat := by
  rw [logExponent, logEntry_of_logAt h]

/-- What the invariant says of a valid field, for the lemmas above. -/
theorem Inv.field {s : State} (h : Inv s) (hf : s.fv = true) :
    ∃ poly, coversGroup (genExp poly) = true ∧ s.tables = genTables poly :=
  ⟨s.poly, h.fieldOk hf⟩

theorem Inv.exists_logAt {s : State} (h : Inv s) (hf : s.fv = true) {x : Byte} (hx : x ≠ 0x00) :
    ∃ l : Byte, logAt s.tables x = some l ∧ l.toNat ≤ 254 := by
  obtain ⟨poly, hc, ht⟩ := h.field hf
  exact ht ▸ Machine.exists_logAt hc hx

end Sys2Proof.Machine

section
open Sys2Proof Sys2Proof.Machine

/-- Settles O32: in exponents, n - n = 0 and (m + n) - n = m. -/
theorem inverseAndDivisionLaws : Obligations.InverseAndDivisionLaws := by
  unfold Obligations.InverseAndDivisionLaws
  intro s h hf
  obtain ⟨poly, hc, ht⟩ := h.field hf
  rw [ht]
  refine ⟨fun a ha => gfMul_gfInv hc ha, fun a b ha hb => ?_⟩
  obtain ⟨m, rfl⟩ := exists_power hc ha
  obtain ⟨n, rfl⟩ := exists_power hc hb
  rw [gfMul_power hc, gfDiv_power hc, add_sub_cancel_right]

/-- Settles O33: addition is XOR, the nonzero elements are the powers of the generator, and multiplication by one of
them is linear. -/
theorem bytesFormField : Obligations.BytesFormField := by
  unfold Obligations.BytesFormField
  intro s h hf
  obtain ⟨poly, hc, ht⟩ := h.field hf
  rw [ht]
  refine ⟨BitVec.xor_assoc, BitVec.xor_comm, fun a => ⟨BitVec.xor_zero, BitVec.xor_self⟩, gfMul_assoc hc,
    gfMul_comm _, gfMul_one hc, fun a b c => ?_, fun a ha => ?_⟩
  · rw [gfMul_comm _ a, gfAdd_gfMul hc, gfMul_comm _ b, gfMul_comm _ c]
  · obtain ⟨b, -, hb⟩ := gfMul_gfInv hc ha
    exact ⟨b, hb⟩

/-- Settles O34: each equation is one between exponents modulo 255. -/
theorem powerEquivalences : Obligations.PowerEquivalences := by
  unfold Obligations.PowerEquivalences
  intro s h hf
  obtain ⟨poly, hc, ht⟩ := h.field hf
  rw [ht]
  refine ⟨fun a ha => ?_, fun a b ha hb => ?_, fun a e f ha => ?_, fun n => ?_⟩
  · obtain ⟨m, rfl⟩ := exists_power hc ha
    rw [gfInv_power hc, gfPow_power hc, gfPow_power hc]
    exact ⟨congrArg _ (power_congr _ (by omega)), power_congr _ (by omega)⟩
  · obtain ⟨m, rfl⟩ := exists_power hc ha
    obtain ⟨n, rfl⟩ := exists_power hc hb
    exact ⟨_, gfInv_power hc n, by rw [gfDiv_power hc, gfMul_power hc, sub_eq_add_neg]⟩
  · obtain ⟨m, rfl⟩ := exists_power hc ha
    simp only [gfPow_power hc, gfMul_power hc]
    refine ⟨power_congr _ ?_, by rw [mul_add]⟩
    rw [mul_add, mul_left_comm, Int.add_mul_emod_self_left]
  · rw [← power_one poly, gfPow_power hc, one_mul, power]
end
end

section
/-!
PROOFS. The eight scalar commands (40_field_arithmetic.md R80, R87 to R94): each runs `scalarCommand` on its field
function, so its next state is read off that function's value.
-/

namespace Sys2Proof.Machine

/-! ## The scalar commands, one equation each (R87 to R94) -/

section
variable (s : State)

theorem exec_add : exec .add s = .next (scalarCommand 0x08 (.ok (gfAdd s.a s.b)) s) := rfl
theorem exec_sub : exec .sub s = .next (scalarCommand 0x09 (.ok (gfSub s.a s.b)) s) := rfl
theorem exec_mul : exec .mul s = .next (scalarCommand 0x0A (.ok (gfMul s.tables s.a s.b)) s) := rfl
theorem exec_div : exec .div s = .next (scalarCommand 0x0B (gfDiv s.tables s.a s.b) s) := rfl
theorem exec_pow : exec .pow s = .next (scalarCommand 0x0C (.ok (gfPow s.tables s.a s.exponent)) s) := rfl
theorem exec_inv : exec .inv s = .next (scalarCommand 0x0D (gfInv s.tables s.a) s) := rfl
theorem exec_exp : exec .exp s = .next (scalarCommand 0x0E (.ok (gfExp s.tables s.a)) s) := rfl
theorem exec_log : exec .log s = .next (scalarCommand 0x0F (gfLog s.tables s.a) s) := rfl

end

/-- Every scalar command runs `scalarCommand` under its own opcode (R80). -/
theorem exec_scalar {i : Instr} (hi : isScalar i = true) (s : State) :
    ∃ value, exec i s = .next (scalarCommand (commandByte i) value s) := by
  cases i with
  | add => exact ⟨_, exec_add s⟩
  | sub => exact ⟨_, exec_sub s⟩
  | mul => exact ⟨_, exec_mul s⟩
  | div => exact ⟨_, exec_div s⟩
  | pow => exact ⟨_, exec_pow s⟩
  | inv => exact ⟨_, exec_inv s⟩
  | exp => exact ⟨_, exec_exp s⟩
  | log => exact ⟨_, exec_log s⟩
  | rd | wr | nop | fieldInit | schemeInit | encode | reconstruct | illegal => cases hi

section
variable {s : State} {i : Instr} {op : Byte} {value : Except ErrorKind Byte}
  (hx : exec i s = .next (scalarCommand op value s)) (hf : s.fv = true)
include hx hf

/-- The whole next state of a scalar command whose function has the value `v` (R162). -/
theorem exec_scalar_ok {v : Byte} (hv : value = .ok v) :
    exec i s = .next { s with cmd := op, r := v, errcode := 0x00, err := false } := by
  rw [hx, hv, scalarCommand_ok hf]
  rfl

/-- The whole next state of a scalar command whose function raises `e` (R163). -/
theorem exec_scalar_error {e : ErrorKind} (hv : value = .error e) :
    exec i s = .next { s with cmd := op, errcode := e.code, err := true } := by
  rw [hx, hv, scalarCommand_error hf]
  rfl

theorem exec_scalar_r {v : Byte} (hv : value = .ok v) : ∃ t, exec i s = .next t ∧ t.r = v :=
  ⟨_, exec_scalar_ok hx hf hv, rfl⟩

end

end Sys2Proof.Machine

section
open Sys2Proof Sys2Proof.Machine

/-- Settles O18: the three ways `scalarCommand` can end. -/
theorem scalarCommandsFrame : Obligations.ScalarCommandsFrame := by
  unfold Obligations.ScalarCommandsFrame
  intro i s hi
  obtain ⟨value, hx⟩ := exec_scalar hi s
  refine ⟨fun hf => ?_, fun hf => ?_⟩
  · rw [hx, scalarCommand_notConfigured hf]
    rfl
  · cases hv : value with
    | ok v => exact .inl ⟨v, exec_scalar_ok hx hf hv⟩
    | error e => exact .inr ⟨e.code, e.code_ne_zero, exec_scalar_error hx hf hv⟩

/-- Settles O19: `gfAdd` is XOR and never raises. -/
theorem addWritesXor : Obligations.AddWritesXor := by
  unfold Obligations.AddWritesXor
  exact fun s hf => exec_scalar_ok (exec_add s) hf rfl

/-- Settles O20: `gfAdd` and `gfSub` are one function. -/
theorem subWritesXor : Obligations.SubWritesXor := by
  unfold Obligations.SubWritesXor
  exact fun s hf => ⟨exec_scalar_ok (exec_sub s) hf rfl,
    _, _, exec_scalar_ok (exec_add s) hf rfl, exec_scalar_ok (exec_sub s) hf rfl, rfl⟩

/-- Settles O21, clause by clause of R82. -/
theorem mulWritesProduct : Obligations.MulWritesProduct := by
  unfold Obligations.MulWritesProduct
  refine fun s h hf => ⟨fun h0 => exec_scalar_ok (exec_mul s) hf ?_, fun ha hb => ?_⟩
  · obtain ha | hb := h0
    · rw [ha, gfMul_zero_left]
    · rw [hb, gfMul_zero_right]
  · obtain ⟨la, hla, -⟩ := h.exists_logAt hf ha
    obtain ⟨lb, hlb, -⟩ := h.exists_logAt hf hb
    refine ⟨la, lb, hla, hlb, exec_scalar_ok (exec_mul s) hf ?_⟩
    rw [gfMul_of_ne_zero _ ha hb, logExponent_of_logAt hla, logExponent_of_logAt hlb]

/-- Settles O22, clause by clause of R83; the dividend zero comes first, so 0 by 0 gives 0 (log entry 6). -/
theorem divWritesQuotientOrRaises : Obligations.DivWritesQuotientOrRaises := by
  unfold Obligations.DivWritesQuotientOrRaises
  refine fun s h hf => ⟨fun ha => exec_scalar_ok (exec_div s) hf ?_,
    fun ha hb => exec_scalar_error (e := .divisionByZero) (exec_div s) hf ?_, fun ha hb => ?_⟩
  · rw [ha, gfDiv_zero_left]
  · rw [hb, gfDiv_zero_right _ ha]
  · obtain ⟨la, hla, -⟩ := h.exists_logAt hf ha
    obtain ⟨lb, hlb, -⟩ := h.exists_logAt hf hb
    refine ⟨la, lb, hla, hlb, exec_scalar_ok (exec_div s) hf ?_⟩
    rw [gfDiv_of_ne_zero _ ha hb, logExponent_of_logAt hla, logExponent_of_logAt hlb, power]

/-- Settles O23, clause by clause of R84. -/
theorem powWritesPower : Obligations.PowWritesPower := by
  unfold Obligations.PowWritesPower
  refine fun s h hf => ⟨fun he => ?_, fun he ha => ?_, fun he ha => ?_⟩
  · exact exec_scalar_ok (exec_pow s) hf (by rw [State.exponent, he, gfPow_exponent_zero])
  · exact exec_scalar_ok (exec_pow s) hf (by rw [ha, State.exponent, gfPow_zero _ he])
  · obtain ⟨la, hla, -⟩ := h.exists_logAt hf ha
    refine ⟨la, hla, exec_scalar_ok (exec_pow s) hf ?_⟩
    rw [State.exponent, gfPow_of_ne_zero _ he ha, logExponent_of_logAt hla, power]

/-- Settles O24, clause by clause of R85. -/
theorem invWritesInverseOrRaises : Obligations.InvWritesInverseOrRaises := by
  unfold Obligations.InvWritesInverseOrRaises
  refine fun s h hf => ⟨fun ha => exec_scalar_error (e := .zeroHasNoInverse) (exec_inv s) hf ?_, fun ha => ?_⟩
  · rw [ha, gfInv_zero]
  · obtain ⟨la, hla, -⟩ := h.exists_logAt hf ha
    refine ⟨la, hla, exec_scalar_ok (exec_inv s) hf ?_⟩
    rw [gfInv_of_ne_zero _ ha, logExponent_of_logAt hla]

/-- Settles O25: `gfExp` is the lookup and never raises. -/
theorem expWritesTableEntry : Obligations.ExpWritesTableEntry := by
  unfold Obligations.ExpWritesTableEntry
  exact fun s hf => exec_scalar_ok (exec_exp s) hf rfl

/-- Settles O26: zero raises, and every other element has an entry of at most 254. -/
theorem logWritesExponentOrRaises : Obligations.LogWritesExponentOrRaises := by
  unfold Obligations.LogWritesExponentOrRaises
  refine fun s h hf => ⟨fun ha => exec_scalar_error (e := .logOfZero) (exec_log s) hf ?_, fun ha => ?_⟩
  · rw [ha, gfLog_zero]
  · obtain ⟨la, hla, hle⟩ := h.exists_logAt hf ha
    refine ⟨la, hla, hle, exec_scalar_ok (exec_log s) hf ?_⟩
    rw [gfLog_of_ne_zero _ ha, logEntry_of_logAt hla]

/-- Settles O27: the tables are those of 0x1D, and each example is a field function evaluated on its operands. -/
theorem scalarWorkedExamples : Obligations.ScalarWorkedExamples := by
  unfold Obligations.ScalarWorkedExamples
  intro s h hf hp
  have ht : s.tables = genTables 0x1D := hp ▸ (h.fieldOk hf).2
  refine ⟨fun ha hb => exec_scalar_r (exec_add s) hf ?_, fun ha hb => exec_scalar_r (exec_sub s) hf ?_,
    fun ha hb => exec_scalar_r (exec_mul s) hf ?_, fun ha hb => exec_scalar_r (exec_div s) hf ?_,
    fun ha hh hl => exec_scalar_r (exec_pow s) hf ?_, fun ha => exec_scalar_r (exec_inv s) hf ?_,
    fun ha => exec_scalar_r (exec_exp s) hf ?_, fun ha => exec_scalar_r (exec_log s) hf ?_⟩
  · rw [ha, hb]; decide
  · rw [ha, hb]; decide
  · rw [ht, ha, hb]; decide +kernel
  · rw [ht, ha, hb]; decide +kernel
  · rw [ht, ha, State.exponent, hh, hl]; decide +kernel
  · rw [ht, ha]; decide +kernel
  · rw [ht, ha]; decide +kernel
  · rw [ht, ha]; decide +kernel
end
end

section
/-!
PROOFS. `FIELD_INIT` (41_field_construction.md R110 to R116): the three formulations of the primitivity check, the
sixteen polynomials that pass it, and the tables they leave.
-/

namespace Sys2Proof.Machine

/-! ## The primitivity check, formulated three ways (R113) -/

theorem mem_expCycle_iff {T : Tables} {x : Byte} : x ∈ expCycle T.exp ↔ ∃ i ≤ 254, expAt T i = x := by
  rw [List.mem_iff_getElem]
  constructor
  · rintro ⟨i, hi, he⟩
    have hi : i < 255 := by simpa using hi
    exact ⟨i, by omega, (expAt_eq_expCycle T hi).trans he⟩
  · rintro ⟨i, hi, he⟩
    exact ⟨i, by simp; omega, (expAt_eq_expCycle T (by omega)).symm.trans he⟩

theorem coversGroup_iff_forall_exists (T : Tables) :
    coversGroup T.exp = true ↔ ∀ x : Byte, x ≠ 0x00 → ∃ i ≤ 254, expAt T i = x := by
  simp only [coversGroup_iff, mem_expCycle_iff]

/-- 255 values drawn from the 255 nonzero bytes cover them all exactly when they are distinct. -/
theorem coversGroup_iff_distinct (T : Tables) :
    coversGroup T.exp = true ↔
      (∀ i j, i ≤ 254 → j ≤ 254 → expAt T i = expAt T j → i = j) ∧ ∀ i ≤ 254, expAt T i ≠ 0x00 := by
  constructor
  · intro h
    exact ⟨fun i j hi hj => expAt_inj h (by omega) (by omega), fun i hi => expAt_ne_zero h (by omega)⟩
  · rintro ⟨hinj, hne⟩
    have hnodup : (expCycle T.exp).Nodup := by
      refine List.nodup_iff_injective_get.mpr fun i j he => Fin.ext ?_
      have hi : i.1 < 255 := by simpa using i.isLt
      have hj : j.1 < 255 := by simpa using j.isLt
      refine hinj i j (by omega) (by omega) ?_
      rwa [expAt_eq_expCycle T hi, expAt_eq_expCycle T hj]
    have hsub : expCycle T.exp ⊆ sequentialPoints 255 := fun x hx => by
      obtain ⟨i, hi, rfl⟩ := mem_expCycle_iff.mp hx
      exact mem_sequentialPoints.mpr (hne i hi)
    have hperm : (expCycle T.exp).Perm (sequentialPoints 255) :=
      (List.subperm_of_subset hnodup hsub).perm_of_length_le (by simp [sequentialPoints])
    exact (coversGroup_iff _).mpr fun x hx => hperm.mem_iff.mpr (mem_sequentialPoints.mpr hx)

section
variable (poly : Byte)

theorem double_expAt_last_eq_iterate :
    double poly (expAt (genTables poly) 254) = (double poly)^[255] 0x01 := by
  rw [expAt_genTables poly (by omega)]
  exact (Function.iterate_succ_apply' (double poly) 254 0x01).symm

/-- The first return to 0x01 is at step 255 (R113), said of the table's entries. -/
def FirstReturnAt255 : Prop :=
  (∀ i, 1 ≤ i → i ≤ 254 → expAt (genTables poly) i ≠ 0x01) ∧ double poly (expAt (genTables poly) 254) = 0x01

variable {poly}

theorem firstReturnAt255_of_coversGroup (h : coversGroup (genExp poly) = true) : FirstReturnAt255 poly := by
  refine ⟨fun i hpos hi he => ?_, double_expAt_last h⟩
  have := expAt_inj (T := genTables poly) h (j := 0) (by omega) (by omega) he
  omega

theorem minimalPeriod_of_firstReturnAt255 (h : FirstReturnAt255 poly) :
    Function.minimalPeriod (double poly) 0x01 = 255 := by
  obtain ⟨hne, hclose⟩ := h
  have hclose : Function.IsPeriodicPt (double poly) 255 0x01 :=
    (double_expAt_last_eq_iterate poly).symm.trans hclose
  have hle := hclose.minimalPeriod_le (by omega)
  by_contra hlt
  refine hne _ (hclose.minimalPeriod_pos (by omega)) (by omega) ?_
  rw [expAt_genTables poly (by omega), Function.iterate_minimalPeriod]

/-- The elements before the first return are distinct, and none is 0x00, which the sequence could not leave. -/
theorem coversGroup_of_minimalPeriod (h : Function.minimalPeriod (double poly) 0x01 = 255) :
    coversGroup (genExp poly) = true := by
  refine (coversGroup_iff_distinct (genTables poly)).mpr ⟨fun i j hi hj he => ?_, fun i hi h0 => ?_⟩
  · rw [expAt_genTables poly (by omega), expAt_genTables poly (by omega)] at he
    exact (Function.iterate_eq_iterate_iff_of_lt_minimalPeriod (by omega) (by omega)).mp he
  · have hstay : (double poly)^[255] 0x01 = 0x00 := by
      rw [show 255 = (255 - i) + i by omega, Function.iterate_add_apply, ← expAt_genTables poly (by omega), h0,
        iterate_double_zero]
    have hreturn : (double poly)^[255] 0x01 = 0x01 := h ▸ Function.iterate_minimalPeriod
    exact absurd (hstay.symm.trans hreturn) (by decide)

theorem coversGroup_iff_firstReturnAt255 : coversGroup (genExp poly) = true ↔ FirstReturnAt255 poly :=
  ⟨firstReturnAt255_of_coversGroup, fun h => coversGroup_of_minimalPeriod (minimalPeriod_of_firstReturnAt255 h)⟩

theorem coversGroup_iff_minimalPeriod :
    coversGroup (genExp poly) = true ↔ Function.minimalPeriod (double poly) 0x01 = 255 :=
  ⟨fun h => minimalPeriod_of_firstReturnAt255 (firstReturnAt255_of_coversGroup h), coversGroup_of_minimalPeriod⟩

end

/-! ## The accepted polynomials (R114) -/

/-- An element returns first after 255 = 3 · 5 · 17 steps when it returns then and after none of 255/3, 255/5, 255/17
steps: every proper divisor of 255 divides one of these. -/
theorem minimalPeriod_eq_255_iff (f : Byte → Byte) (x : Byte) :
    Function.minimalPeriod f x = 255 ↔
      f^[255] x = x ∧ f^[85] x ≠ x ∧ f^[51] x ≠ x ∧ f^[15] x ≠ x := by
  have hdvd (n : Nat) : f^[n] x = x ↔ Function.minimalPeriod f x ∣ n := Function.isPeriodicPt_iff_minimalPeriod_dvd
  have hdivisors : ∀ d ∈ Nat.divisors 255, ¬ d ∣ 85 → ¬ d ∣ 51 → ¬ d ∣ 15 → d = 255 := by decide
  simp only [ne_eq, hdvd]
  constructor
  · intro h
    rw [h]
    decide
  · rintro ⟨h255, h85, h51, h15⟩
    exact hdivisors _ (Nat.mem_divisors.mpr ⟨h255, by decide⟩) h85 h51 h15

/-- R114, by evaluating for every byte the four iterates that decide the period. -/
theorem coversGroup_iff_mem_acceptedPolynomials (poly : Byte) :
    coversGroup (genExp poly) = true ↔ poly ∈ acceptedPolynomials := by
  rw [coversGroup_iff_minimalPeriod, minimalPeriod_eq_255_iff]
  revert poly
  decide +kernel

/-- `FIELD_INIT` decides `FV` by the check and reports 0x05 when it fails (R110). -/
theorem exists_fieldInit (s : State) : ∃ t, exec .fieldInit s = .next t ∧ t.fv = coversGroup (genExp s.poly) ∧
    (t.fv = true ↔ t.errcode = 0x00) ∧ (t.fv = false ↔ t.errcode = 0x05) := by
  cases hc : coversGroup (genExp s.poly) with
  | true => exact ⟨_, fieldInit_accepts hc, by simp⟩
  | false => exact ⟨_, fieldInit_rejects hc, by simp [ErrorKind.code]⟩

/-! ## The tables of an accepted polynomial (R111, R112, R115) -/

/-- No reduction happens before the top bit is set. -/
theorem double_twoPow (poly : Byte) {i : Nat} (hi : i < 7) :
    double poly (BitVec.twoPow 8 i) = BitVec.twoPow 8 (i + 1) := by
  have htop : (BitVec.twoPow 8 i).getLsbD 7 = false := by
    rw [BitVec.getLsbD_twoPow, decide_eq_false (p := i = 7) (by omega), Bool.and_false]
  rw [double, htop, if_neg Bool.false_ne_true]
  exact (BitVec.shiftLeft_add 1#8 i 1).symm

theorem expAt_genTables_of_lt_eight (poly : Byte) {i : Nat} (hi : i < 8) :
    expAt (genTables poly) i = BitVec.twoPow 8 i := by
  induction i with
  | zero => rfl
  | succ i ih => rw [expAt_genTables_succ poly (by omega), ih (by omega), double_twoPow poly (by omega)]

theorem expAt_genTables_eight (poly : Byte) : expAt (genTables poly) 8 = poly := by
  rw [expAt_genTables_succ poly (i := 7) (by omega), expAt_genTables_of_lt_eight poly (by omega)]
  exact BitVec.zero_xor

theorem expAt_genTables_255 (poly : Byte) : expAt (genTables poly) 255 = 0x01 :=
  List.getElem_concat_length (doublings_length poly 255 0x01).symm _

theorem logAt_genTables_zero (poly : Byte) : logAt (genTables poly) 0x00 = none := rfl

/-- `LOG` gives a nonzero byte an exponent that produces it (by `expAt_inj` there is no other up to 254). -/
theorem exists_logAt_expAt {poly : Byte} (h : coversGroup (genExp poly) = true) {x : Byte} (hx : x ≠ 0x00) :
    ∃ e : Byte, logAt (genTables poly) x = some e ∧ e.toNat ≤ 254 ∧ expAt (genTables poly) e.toNat = x := by
  obtain ⟨i, hi, rfl⟩ := exists_expAt h hx
  have he : (BitVec.ofNat 8 i).toNat = i := by rw [BitVec.toNat_ofNat]; omega
  exact ⟨_, logAt_expAt h hi, by omega, by rw [he]⟩

end Sys2Proof.Machine

section
open Sys2Proof Sys2Proof.Machine

/-- Settles O28: the sixteen polynomials pass the check, and the tables generated from them are as R111 and R112 say. -/
theorem fieldInitBuildsTables : Obligations.FieldInitBuildsTables := by
  unfold Obligations.FieldInitBuildsTables
  intro s hs
  have hc := (coversGroup_iff_mem_acceptedPolynomials s.poly).mpr hs
  refine ⟨genTables s.poly, fieldInit_accepts hc, rfl, fun i hi => expAt_genTables_succ s.poly hi,
    expAt_genTables_255 s.poly, logAt_genTables_zero s.poly, fun v hv => ?_⟩
  obtain ⟨e, hlog, hle, rfl⟩ := exists_logAt_expAt hc hv
  exact ⟨e, hlog, hle, rfl, fun i hi => expAt_inj (T := genTables s.poly) hc (by omega) (by omega)⟩

/-- Settles O29: no other polynomial passes the check. -/
theorem fieldInitRejectsOthers : Obligations.FieldInitRejectsOthers := by
  unfold Obligations.FieldInitRejectsOthers
  intro s hs
  have hc : coversGroup (genExp s.poly) = false :=
    Bool.eq_false_iff.mpr (hs <| (coversGroup_iff_mem_acceptedPolynomials s.poly).mp ·)
  exact ⟨_, _, fieldInit_rejects hc⟩

/-- Settles O30: `FIELD_INIT` sets `FV` by the check, and each formulation of R113 is equivalent to it. -/
theorem primitivityFormulationsAgree : Obligations.PrimitivityFormulationsAgree := by
  unfold Obligations.PrimitivityFormulationsAgree
  intro s
  obtain ⟨t, hx, hfv, hok, herr⟩ := exists_fieldInit s
  refine ⟨t, hx, hok, herr, ?_⟩
  rw [hfv]
  exact ⟨coversGroup_iff_forall_exists (genTables s.poly), coversGroup_iff_distinct (genTables s.poly),
    coversGroup_iff_firstReturnAt255⟩

/-- Settles O31: the tables are the generated ones, and `LOG` inverts `EXP`. -/
theorem tablesOfValidField : Obligations.TablesOfValidField := by
  unfold Obligations.TablesOfValidField
  intro s h hf
  obtain ⟨hc, ht⟩ := h.fieldOk hf
  rw [ht]
  refine ⟨fun i hi => ?_, expAt_genTables_eight s.poly, ?_, expAt_genTables_255 s.poly,
    gfMul_generator hc (i := 254) (by omega), logAt_genTables_zero s.poly, fun e he => ?_,
    fun x hx => exists_logAt_expAt hc hx⟩
  · have hpow : expAt (genTables s.poly) i = BitVec.ofNat 8 (2 ^ i) := by
      rw [expAt_genTables_of_lt_eight s.poly hi]
      exact BitVec.eq_of_toNat_eq (BitVec.toNat_twoPow 8 i)
    exact ⟨hpow, hpow ▸ logAt_expAt hc (by omega)⟩
  · have hlog := logAt_expAt hc (i := 8) (by omega)
    rwa [expAt_genTables_eight] at hlog
  · exact ⟨expAt_ne_zero (T := genTables s.poly) hc (by omega), logAt_expAt hc (by omega)⟩
end
end

section
/-!
PROOFS. Interpolation while `FV` = 1 (42_encoder.md R121): the bytes are read into a field, where `lagrange` is
Mathlib's interpolating polynomial. From this its values at the nodes (R122) and its uniqueness (R127).
-/

namespace Sys2Proof.Machine

/-! ## The sum and the products of R121 -/

/-- A product that starts at `v` is `v` times the product that starts at 0x01. -/
theorem foldl_gfMul {poly : Byte} (h : coversGroup (genExp poly) = true) (q : Nat → Byte) (ls : List Nat) (v : Byte) :
    ls.foldl (fun t l => gfMul (genTables poly) t (q l)) v =
      gfMul (genTables poly) v (ls.foldl (fun t l => gfMul (genTables poly) t (q l)) 0x01) := by
  induction ls using List.reverseRecOn with
  | nil => exact (gfMul_one h v).symm
  | append_singleton ls l ih => simp only [List.foldl_append, List.foldl_cons, List.foldl_nil, ih, gfMul_assoc h]

/-- The term of R121: the value times the product over the other nodes. -/
theorem lagrangeTerm_eq {poly : Byte} (h : coversGroup (genExp poly) = true) (X V : Nat → Byte) (n : Nat) (x : Byte)
    (j : Nat) :
    lagrangeTerm (genTables poly) X V n x j = gfMul (genTables poly) (V j)
      (((List.range n).filter fun l => l ≠ j).foldl
        (fun t l => gfMul (genTables poly) t (quotient (genTables poly) (x ^^^ X l) (X j ^^^ X l))) 0x01) := by
  rw [← foldl_gfMul h, List.foldl_filter]
  simp only [decide_eq_true_eq, ite_not]
  rfl

/-- One node: the empty product leaves its value. -/
theorem lagrange_one (T : Tables) (X V : Nat → Byte) (x : Byte) : lagrange T X V 1 x = V 0 := BitVec.zero_xor

/-! ## The quotients of R121 -/

theorem xor_ne_zero_of_distinct {X : Nat → Byte} {n j l : Nat} (hX : DistinctPoints X n) (hj : j < n) (hl : l < n)
    (hne : l ≠ j) : X j ^^^ X l ≠ 0x00 := fun h0 => hne (hX j l hj hl (BitVec.xor_eq_zero_iff.mp h0)).symm

/-- A nonzero denominator gives a quotient, 0x00 when the numerator is. -/
theorem exists_gfDiv (T : Tables) (a : Byte) {b : Byte} (hb : b ≠ 0x00) :
    ∃ q, gfDiv T a b = .ok q ∧ (a = 0x00 → q = 0x00) := by
  obtain rfl | ha := eq_or_ne a 0x00
  · exact ⟨_, gfDiv_zero_left T b, fun _ => rfl⟩
  · exact ⟨_, gfDiv_of_ne_zero T ha hb, fun h0 => absurd h0 ha⟩

theorem quotient_of_ok {T : Tables} {a b q : Byte} (h : gfDiv T a b = .ok q) : quotient T a b = q := by
  rw [quotient, h]

theorem gfMul_quotient {poly : Byte} (h : coversGroup (genExp poly) = true) (a : Byte) {b : Byte} (hb : b ≠ 0x00) :
    gfMul (genTables poly) (quotient (genTables poly) a b) b = a := by
  obtain rfl | ha := eq_or_ne a 0x00
  · rw [quotient_of_ok (gfDiv_zero_left _ b), gfMul_zero_left]
  · obtain ⟨m, rfl⟩ := exists_power h ha
    obtain ⟨n, rfl⟩ := exists_power h hb
    rw [quotient_of_ok (gfDiv_power h m n), gfMul_power h, sub_add_cancel]

/-! ## The bytes read into a field -/

theorem gfMul_gfAdd {poly : Byte} (h : coversGroup (genExp poly) = true) (a b c : Byte) :
    gfMul (genTables poly) a (gfAdd b c) = gfAdd (gfMul (genTables poly) a b) (gfMul (genTables poly) a c) := by
  rw [gfMul_comm _ a, gfAdd_gfMul h, gfMul_comm _ b, gfMul_comm _ c]

theorem gfMul_gfPow_neg_one {poly : Byte} (h : coversGroup (genExp poly) = true) {a : Byte} (ha : a ≠ 0x00) :
    gfMul (genTables poly) a (gfPow (genTables poly) a (-1)) = 0x01 := by
  obtain ⟨n, rfl⟩ := exists_power h ha
  rw [gfPow_power h, gfMul_power h, mul_neg_one, add_neg_cancel, power_zero]

/-- The bytes with `gf_add` and `gf_mul` are a field in Mathlib's sense (40_field_arithmetic.md R100). The inverse is
the power -1, which sends zero to zero. -/
@[reducible] def byteField {poly : Byte} (h : coversGroup (genExp poly) = true) : Field Byte :=
  @Field.ofMinimalAxioms Byte ⟨gfAdd⟩ ⟨gfMul (genTables poly)⟩ ⟨id⟩ ⟨fun a => gfPow (genTables poly) a (-1)⟩
    ⟨0x00⟩ ⟨0x01⟩ BitVec.xor_assoc (fun _ => BitVec.zero_xor) (fun _ => BitVec.xor_self) (gfMul_assoc h) (gfMul_comm _)
    (fun a => (gfMul_comm _ _ a).trans (gfMul_one h a)) (fun _ => gfMul_gfPow_neg_one h)
    (gfPow_zero _ (e := -1) (by decide)) (gfMul_gfAdd h) ⟨0x00, 0x01, by decide⟩

/-- `φ` reads the bytes into a field: XOR is its sum and `gf_mul` its product. The field is kept apart from the bytes,
whose own sum and product are those of numbers. -/
structure FieldReading (T : Tables) {F : Type} [Field F] (φ : Byte → F) : Prop where
  injective : Function.Injective φ
  map_xor : ∀ a b : Byte, φ (a ^^^ b) = φ a + φ b
  map_gfMul : ∀ a b : Byte, φ (gfMul T a b) = φ a * φ b

theorem exists_fieldReading {poly : Byte} (h : coversGroup (genExp poly) = true) :
    ∃ (F : Type) (_ : Field F) (φ : Byte → F), FieldReading (genTables poly) φ :=
  ⟨Byte, byteField h, id, @FieldReading.mk _ _ (byteField h) _ Function.injective_id (fun _ _ => rfl) fun _ _ => rfl⟩

section
variable {poly : Byte} {F : Type} [Field F] {φ : Byte → F} (hφ : FieldReading (genTables poly) φ)
include hφ

theorem FieldReading.map_zero : φ 0x00 = 0 := by
  have h : φ 0x00 = φ 0x00 + φ 0x00 := hφ.map_xor 0x00 0x00
  rwa [left_eq_add] at h

/-- Every byte is its own negative, so XOR is the difference too (40_field_arithmetic.md R81). -/
theorem FieldReading.map_xor_eq_sub (a b : Byte) : φ (a ^^^ b) = φ a - φ b := by
  have h : φ b + φ b = 0 := by
    rw [← hφ.map_xor, BitVec.xor_self]
    exact hφ.map_zero
  rw [hφ.map_xor, sub_eq_add_neg, ← eq_neg_of_add_eq_zero_left h]

theorem FieldReading.map_quotient (h : coversGroup (genExp poly) = true) (a : Byte) {b : Byte} (hb : b ≠ 0x00) :
    φ (quotient (genTables poly) a b) = φ a / φ b := by
  have hne : φ b ≠ 0 := hφ.map_zero ▸ hφ.injective.ne hb
  rw [eq_div_iff hne, ← hφ.map_gfMul, gfMul_quotient h a hb]

/-! ## `lagrange` is the interpolating polynomial -/

theorem FieldReading.map_foldl_gfAdd (f : Nat → Byte) (n : Nat) :
    φ ((List.range n).foldl (fun acc j => gfAdd acc (f j)) 0x00) = ∑ j ∈ Finset.range n, φ (f j) := by
  induction n with
  | zero => exact hφ.map_zero
  | succ n ih =>
    rw [List.range_succ, List.foldl_append, Finset.sum_range_succ, ← ih]
    exact hφ.map_xor _ _

theorem FieldReading.map_foldl_gfMul (q : Nat → Byte) (v : Byte) (j n : Nat) :
    φ ((List.range n).foldl (fun t l => if l = j then t else gfMul (genTables poly) t (q l)) v) =
      φ v * ∏ l ∈ Finset.range n, if l ≠ j then φ (q l) else 1 := by
  induction n with
  | zero => exact (mul_one _).symm
  | succ n ih =>
    rw [List.range_succ, List.foldl_append, Finset.prod_range_succ, ← mul_assoc, ← ih, List.foldl_cons, List.foldl_nil,
      ite_not]
    split
    · rw [mul_one]
    · exact hφ.map_gfMul _ _

variable {X V : Nat → Byte} {n : Nat} (hX : DistinctPoints X n)
include hX

theorem FieldReading.injOn_points : Set.InjOn (φ ∘ X) (Finset.range n) := fun j hj l hl he =>
  hX j l (Finset.mem_range.mp hj) (Finset.mem_range.mp hl) (hφ.injective he)

variable (h : coversGroup (genExp poly) = true)
include h

theorem FieldReading.map_lagrangeTerm (x : Byte) {j : Nat} (hj : j < n) :
    φ (lagrangeTerm (genTables poly) X V n x j) =
      φ (V j) * (Lagrange.basis (Finset.range n) (φ ∘ X) j).eval (φ x) := by
  rw [lagrangeTerm, hφ.map_foldl_gfMul, ← Finset.prod_filter, Finset.filter_ne', Lagrange.basis, Polynomial.eval_prod]
  congr 1
  refine Finset.prod_congr rfl fun l hl => ?_
  obtain ⟨hne, hl⟩ := Finset.mem_erase.mp hl
  have hden := xor_ne_zero_of_distinct hX hj (Finset.mem_range.mp hl) hne
  rw [gfSub, gfSub, hφ.map_quotient h _ hden, hφ.map_xor_eq_sub, hφ.map_xor_eq_sub, Lagrange.basisDivisor]
  simp [div_eq_inv_mul]

theorem FieldReading.map_lagrange (x : Byte) :
    φ (lagrange (genTables poly) X V n x) =
      (Lagrange.interpolate (Finset.range n) (φ ∘ X) (φ ∘ V)).eval (φ x) := by
  rw [lagrange, hφ.map_foldl_gfAdd, Lagrange.interpolate_apply, Polynomial.eval_finsetSum]
  refine Finset.sum_congr rfl fun j hj => ?_
  rw [hφ.map_lagrangeTerm hX h x (Finset.mem_range.mp hj), Polynomial.eval_mul, Polynomial.eval_C]
  rfl

/-- Uniqueness: a polynomial of degree below n through the nodes has the value of `lagrange` everywhere. -/
theorem FieldReading.map_lagrange_eq_eval {p : Polynomial F} (hdeg : p.degree < n)
    (hp : ∀ j < n, p.eval (φ (X j)) = φ (V j)) (x : Byte) :
    φ (lagrange (genTables poly) X V n x) = p.eval (φ x) := by
  rw [hφ.map_lagrange hX h, ← Lagrange.eq_interpolate_of_eval_eq (φ ∘ V) (hφ.injOn_points hX)
    (by rwa [Finset.card_range]) fun j hj => hp j (Finset.mem_range.mp hj)]

end

section
variable {poly : Byte} (h : coversGroup (genExp poly) = true) {X V : Nat → Byte} {n : Nat} (hX : DistinctPoints X n)
include h hX

/-- The polynomial passes through its nodes. -/
theorem lagrange_node {j : Nat} (hj : j < n) : lagrange (genTables poly) X V n (X j) = V j := by
  obtain ⟨F, _, φ, hφ⟩ := exists_fieldReading h
  refine hφ.injective ?_
  rw [hφ.map_lagrange hX h]
  exact Lagrange.eval_interpolate_at_node (φ ∘ V) (hφ.injOn_points hX) (Finset.mem_range.mpr hj)

/-- Through at least two nodes on the diagonal runs only the polynomial x (R127). -/
theorem lagrange_diagonal (hn : 2 ≤ n) (hV : ∀ j < n, V j = X j) (x : Byte) :
    lagrange (genTables poly) X V n x = x := by
  obtain ⟨F, _, φ, hφ⟩ := exists_fieldReading h
  have hdeg : (Polynomial.X : Polynomial F).degree < n := by
    rw [Polynomial.degree_X]
    exact_mod_cast hn
  refine hφ.injective ?_
  rw [hφ.map_lagrange_eq_eval hX h hdeg fun j hj => by rw [Polynomial.eval_X, hV j hj], Polynomial.eval_X]

end

end Sys2Proof.Machine

section
open Sys2Proof Sys2Proof.Machine

/-- Settles O38: distinct points have a nonzero XOR, and the value comes out of its term's product by associativity. -/
theorem lagrangeFormula : Obligations.LagrangeFormula := by
  unfold Obligations.LagrangeFormula
  intro s X V n x hs hf hX
  obtain ⟨poly, hc, ht⟩ := hs.field hf
  rw [ht]
  refine ⟨fun j l hj hl hne => ?_, fun h1 => h1 ▸ lagrange_one _ X V x, ?_⟩
  · have hden := xor_ne_zero_of_distinct hX hj hl hne
    obtain ⟨q, hq, h0⟩ := exists_gfDiv (genTables poly) (x ^^^ X l) hden
    exact ⟨hden, q, hq, fun hx => h0 (BitVec.xor_eq_zero_iff.mpr hx)⟩
  · simp only [lagrange, lagrangeTerm_eq hc, gfAdd]
end
end

section
/-!
PROOFS. `ENCODE` (42_encoder.md R120, R122, R127): its outcomes, the codeword entry by entry, and from these the
statements about the encoder.
-/

namespace Sys2Proof.Machine

/-! ## The codeword, entry by entry -/

section
variable {s : State} {i : Nat}

theorem codeword_getD_data (h : i < s.kNat) : s.codeword.getD i 0x00 = s.data i := by
  rw [codeword_eq, List.getD_append _ _ _ _ (by simpa using h)]
  simp [h]

theorem codeword_getD_redundancy (hk : s.kNat ≤ i) (h : i < s.codeLength) :
    s.codeword.getD i 0x00 = lagrange s.tables s.xpt s.data s.kNat (s.xpt i) := by
  have hm : i - s.kNat < s.m.toNat := Nat.sub_lt_left_of_lt_add hk h
  rw [codeword_eq, List.getD_append_right _ _ _ _ (by simpa using hk)]
  simp [hm, Nat.add_sub_cancel' hk]

end

/-! ## The outcomes of `ENCODE` -/

section
variable {s : State}

theorem encode_notConfigured (h : s.fv = false ∨ s.sv = false) :
    exec .encode s = .next ((s.latch 0x03).raise .notConfigured) := by
  rw [exec, execEncode_eq, if_pos h]

theorem encode_invalidShardCount (hf : s.fv = true) (hs : s.sv = true) (hd : s.dlen ≠ s.k) :
    exec .encode s = .next ((s.latch 0x03).raise .invalidShardCount) := by
  rw [exec, execEncode_eq, if_neg (by simp [hf, hs]), if_pos hd]

theorem encode_succeeds (hf : s.fv = true) (hs : s.sv = true) (hd : s.dlen = s.k) :
    exec .encode s = .next ((s.latch 0x03).storeBlock cwBase s.codeword).done := by
  rw [exec, execEncode_eq, if_neg (by simp [hf, hs]), if_neg (not_not.mpr hd)]

end

/-- The points of the data positions are distinct (43_evaluation_scheme.md R133). -/
theorem Inv.distinct_dataPoints {s : State} (h : Inv s) (hs : s.sv = true) : DistinctPoints s.xpt s.kNat := by
  obtain ⟨-, -, -, hdist, -⟩ := pointsOfValidScheme s h hs
  exact fun j l hj hl => hdist j l (Nat.lt_add_right _ hj) (Nat.lt_add_right _ hl)

end Sys2Proof.Machine

section
open Sys2Proof Sys2Proof.Machine

/-- Settles O40: both errors are tests of `ENCODE`, made in this order. -/
theorem encodeErrors : Obligations.EncodeErrors := by
  unfold Obligations.EncodeErrors
  exact fun s => ⟨encode_notConfigured, encode_invalidShardCount⟩

/-- Settles O39: the block stored at `CW` is the codeword, of K + M entries. -/
theorem encodeWritesCodeword : Obligations.EncodeWritesCodeword := by
  unfold Obligations.EncodeWritesCodeword
  intro s hm hf hs hd
  have hread : ∀ x, Memory.read (Memory.writeBlock s.mem cwBase s.codeword) x =
      if cwBase ≤ x ∧ x < cwBase + s.codeLength then s.codeword.getD (x - cwBase) 0x00 else Memory.read s.mem x :=
    fun x => codeword_length s ▸ Memory.read_writeBlock hm cwBase s.codeword x
  have hentry : ∀ i < s.codeLength,
      Memory.read (Memory.writeBlock s.mem cwBase s.codeword) (cwBase + i) = s.codeword.getD i 0x00 := fun i hi => by
    rw [hread, if_pos (by omega), Nat.add_sub_cancel_left]
  refine ⟨_, encode_succeeds hf hs hd, fun j hj => ?_, fun i hk hi => ?_, fun x hx => ?_⟩
  · exact (hentry j (Nat.lt_add_right _ hj)).trans (codeword_getD_data hj)
  · exact (hentry i hi).trans (codeword_getD_redundancy hk hi)
  · have hout : ¬(cwBase ≤ x ∧ x < cwBase + s.codeLength) := by
      rw [cwBase, State.codeLength]
      omega
    exact (hread x).trans (if_neg hout)

/-- Settles O41: `ENCODE` copies the data, and the polynomial passes through its nodes. -/
theorem encodeIsSystematic : Obligations.EncodeIsSystematic := by
  unfold Obligations.EncodeIsSystematic
  intro s h hs hd
  obtain ⟨hf, -, -⟩ := h.schemeOk hs
  obtain ⟨poly, hc, ht⟩ := h.field hf
  obtain ⟨mem, hx, hdata, -, -⟩ := encodeWritesCodeword s h.mem_wf hf hs hd
  refine ⟨_, hx, rfl, fun j hj => ⟨hdata j hj, ?_⟩⟩
  rw [ht]
  exact lagrange_node hc (h.distinct_dataPoints hs) hj

/-- Settles O42: the data copied are the points, and at the other points the polynomial x has the point as its value. -/
theorem ownPointsEncodeToPoints : Obligations.OwnPointsEncodeToPoints := by
  unfold Obligations.OwnPointsEncodeToPoints
  intro s h hs hd hk hown
  obtain ⟨hf, -, -⟩ := h.schemeOk hs
  obtain ⟨poly, hc, ht⟩ := h.field hf
  obtain ⟨mem, hx, hdata, hcode, -⟩ := encodeWritesCodeword s h.mem_wf hf hs hd
  refine ⟨_, hx, fun i hi => ?_⟩
  obtain hlt | hle := Nat.lt_or_ge i s.k.toNat
  · exact (hdata i hlt).trans (hown i hlt)
  · refine (hcode i hle hi).trans ?_
    rw [ht]
    exact lagrange_diagonal hc (h.distinct_dataPoints hs) hk hown (s.xpt i)
end
end

section
/-!
PROOFS. What `SCHEME_INIT` leaves (43_evaluation_scheme.md R130 to R132): the points it writes, the rest of the memory,
and its two errors.
-/

namespace Sys2Proof.Machine

/-! ## What a block write leaves -/

theorem Memory.read_writeBlock_entry {mem : Memory} (h : Memory.wf mem) (base : Nat) {vs : List Byte} {i : Nat}
    (hi : i < vs.length) : Memory.read (Memory.writeBlock mem base vs) (base + i) = vs.getD i 0x00 := by
  rw [Memory.read_writeBlock h, if_pos (by omega), Nat.add_sub_cancel_left]

theorem Memory.sameOutside_writeBlock {mem : Memory} (h : Memory.wf mem) (base : Nat) (vs : List Byte) :
    SameOutside mem (Memory.writeBlock mem base vs) base vs.length := fun x hx => by
  rw [Memory.read_writeBlock h, if_neg (by omega)]

/-! ## The points, for any tables -/

theorem geometricPoints_getD_zero (T : Tables) {n : Nat} (h : 0 < n) (x : Byte) :
    (geometricPoints T n x).getD 0 0x00 = x := by
  cases n with
  | zero => omega
  | succ n => rfl

/-- Each geometric point is the one before it times the generator (R131). -/
theorem geometricPoints_getD_succ (T : Tables) {n i : Nat} (h : i + 1 < n) (x : Byte) :
    (geometricPoints T n x).getD (i + 1) 0x00 =
      gfMul T ((geometricPoints T n x).getD i 0x00) Config.generator := by
  induction n generalizing i x with
  | zero => omega
  | succ n ih =>
    cases i with
    | zero => exact geometricPoints_getD_zero T (by omega) _
    | succ i => exact ih (by omega) _

theorem schemePoints_geometric (T : Tables) (n : Nat) : schemePoints T 0x00 n = geometricPoints T n 0x01 := if_pos rfl

theorem schemePoints_sequential (T : Tables) (n : Nat) : schemePoints T 0x01 n = sequentialPoints n :=
  if_neg (by decide)

/-! ## The three ways `SCHEME_INIT` ends (R130) -/

section
variable {s : State}

theorem schemeInit_notConfigured (hf : s.fv = false) :
    exec .schemeInit s = .next ((s.latch 0x02).raise .notConfigured) := by
  rw [exec, execSchemeInit_eq, if_pos hf]

theorem schemeInit_invalidConfiguration (hf : s.fv = true) (hl : s.legalConfiguration = false) :
    exec .schemeInit s = .next ((s.latch 0x02).invalidateScheme.raise .invalidConfiguration) := by
  rw [exec, execSchemeInit_eq, if_neg (by simp [hf]), if_pos hl]

theorem schemeInit_succeeds (hf : s.fv = true) (hl : s.legalConfiguration = true) :
    exec .schemeInit s = .next ((s.latch 0x02).storeBlock xptBase
      (schemePoints s.tables s.scheme s.codeLength)).validateScheme.done := by
  rw [exec, execSchemeInit_eq, if_neg (by simp [hf]), if_neg (by simp [hl])]

end

end Sys2Proof.Machine

section
open Sys2Proof Sys2Proof.Machine

/-- Settles O36: the field's flag is tested first, then the configuration. -/
theorem schemeInitErrors : Obligations.SchemeInitErrors := by
  unfold Obligations.SchemeInitErrors
  refine fun s => ⟨schemeInit_notConfigured, fun hf hc => schemeInit_invalidConfiguration hf ?_⟩
  exact Bool.eq_false_iff.mpr fun hl => hc ((legalConfiguration_iff s).mp hl)

/-- Settles O35: the block stored at `XPT` is the list of the scheme's points, of K + M entries. -/
theorem schemeInitWritesPoints : Obligations.SchemeInitWritesPoints := by
  unfold Obligations.SchemeInitWritesPoints
  intro s hm hf hk hkm hscheme
  have hlen := schemePoints_length s.tables s.scheme s.codeLength
  have hentry : ∀ i < s.codeLength,
      Memory.read (Memory.writeBlock s.mem xptBase (schemePoints s.tables s.scheme s.codeLength)) (xptBase + i) =
        (schemePoints s.tables s.scheme s.codeLength).getD i 0x00 := fun i hi =>
    Memory.read_writeBlock_entry hm xptBase (hlen.symm ▸ hi)
  have hpos : 0 < s.codeLength := Nat.lt_of_lt_of_le hk (Nat.le_add_right _ _)
  have hlegal := (legalConfiguration_iff s).mpr ⟨hk, hkm, hscheme⟩
  refine ⟨_, schemeInit_succeeds hf hlegal, fun h0 => ⟨?_, fun i hi => ?_⟩, fun h1 i hi => ?_, ?_⟩
  · refine (hentry 0 hpos).trans ?_
    rw [h0, schemePoints_geometric]
    exact geometricPoints_getD_zero _ hpos _
  · have hprev := congrArg (gfMul s.tables · 0x02) (hentry i (Nat.lt_of_succ_lt hi))
    refine (hentry (i + 1) hi).trans (.trans ?_ hprev.symm)
    rw [h0, schemePoints_geometric]
    exact geometricPoints_getD_succ _ hi _
  · refine (hentry i hi).trans ?_
    rw [h1, schemePoints_sequential]
    exact sequentialPoints_getD hi
  · have hout := Memory.sameOutside_writeBlock hm xptBase (schemePoints s.tables s.scheme s.codeLength)
    rw [hlen] at hout
    exact hout
end
end

section
/-!
PROOFS. `RECONSTRUCT` (44_reconstructor.md R140 to R146): its outcomes, the selected shards it reads, and the recovery
of the data by resampling the codeword's polynomial.
-/

namespace Sys2Proof.Machine

/-! ## The two passes over the selected slots (R142) -/

theorem someShardOutOfRange_eq_false {s : State} (h : ∀ j < s.kNat, (s.shpos j).toNat < s.codeLength) :
    s.someShardOutOfRange = false := by
  refine Bool.eq_false_iff.mpr fun hout => ?_
  obtain ⟨j, hj, hle⟩ := (someShardOutOfRange_iff s).mp hout
  exact Nat.not_lt.mpr hle (h j hj)

section
variable {s : State} (h : ShardsOk s)
include h

theorem ShardsOk.someShardDuplicated : s.someShardDuplicated = false := by
  refine Bool.eq_false_iff.mpr fun hdup => ?_
  obtain ⟨j, l, hjl, hl, heq⟩ := (someShardDuplicated_iff s).mp hdup
  exact Nat.ne_of_lt hjl (h.2 j l (Nat.lt_trans hjl hl) hl heq)

/-- Distinct positions have distinct points (43_evaluation_scheme.md R133). -/
theorem ShardsOk.distinct_points (hi : Inv s) (hs : s.sv = true) :
    DistinctPoints (fun j => s.xpt (s.shpos j).toNat) s.kNat := by
  obtain ⟨-, -, -, hdist, -⟩ := pointsOfValidScheme s hi hs
  obtain ⟨hrange, hinj⟩ := h
  exact fun j l hj hl he => hinj j l hj hl (BitVec.eq_of_toNat_eq (hdist _ _ (hrange j hj) (hrange l hl) he))

end

/-! ## The outcomes of `RECONSTRUCT` (R140) -/

/-- The error `RECONSTRUCT` raises, if any: its four tests in their priority (R140, R142). -/
def State.reconstructError (s : State) : Option ErrorKind :=
  if s.fv = false ∨ s.sv = false then some .notConfigured
  else if s.nsh.toNat < s.kNat then some .invalidShardCount
  else if s.someShardOutOfRange = true then some .positionOutOfRange
  else if s.someShardDuplicated = true then some .corruptedEvaluationPoints
  else none

section
variable {s : State}

theorem reconstruct_eq_elim : exec .reconstruct s =
    .next (s.reconstructError.elim ((s.latch 0x04).storeBlock outBase s.recovered).done (s.latch 0x04).raise) := by
  rw [exec, execReconstruct_eq, State.reconstructError]
  split_ifs <;> rfl

theorem reconstruct_raises {e : ErrorKind} (h : s.reconstructError = some e) :
    exec .reconstruct s = .next ((s.latch 0x04).raise e) := by
  rw [reconstruct_eq_elim, h, Option.elim_some]

theorem reconstruct_succeeds (h : s.reconstructError = none) :
    exec .reconstruct s = .next ((s.latch 0x04).storeBlock outBase s.recovered).done := by
  rw [reconstruct_eq_elim, h, Option.elim_none]

theorem reconstructError_notConfigured (h : s.fv = false ∨ s.sv = false) :
    s.reconstructError = some .notConfigured := if_pos h

section
variable (hf : s.fv = true) (hs : s.sv = true)
include hf hs

theorem reconstructError_invalidShardCount (hn : s.nsh.toNat < s.kNat) :
    s.reconstructError = some .invalidShardCount := by
  rw [State.reconstructError, if_neg (by simp [hf, hs]), if_pos hn]

variable (hn : s.kNat ≤ s.nsh.toNat)
include hn

theorem reconstructError_positionOutOfRange (ho : s.someShardOutOfRange = true) :
    s.reconstructError = some .positionOutOfRange := by
  rw [State.reconstructError, if_neg (by simp [hf, hs]), if_neg (Nat.not_lt.mpr hn), if_pos ho]

theorem reconstructError_corruptedEvaluationPoints (ho : s.someShardOutOfRange = false)
    (hd : s.someShardDuplicated = true) : s.reconstructError = some .corruptedEvaluationPoints := by
  rw [State.reconstructError, if_neg (by simp [hf, hs]), if_neg (Nat.not_lt.mpr hn), if_neg (by simp [ho]), if_pos hd]

theorem ShardsOk.reconstructError (h : ShardsOk s) : s.reconstructError = none := by
  rw [State.reconstructError, if_neg (by simp [hf, hs]), if_neg (Nat.not_lt.mpr hn),
    if_neg (by simp [someShardOutOfRange_eq_false h.1]), if_neg (by simp [h.someShardDuplicated])]

end

theorem recovered_getD {i : Nat} (hi : i < s.kNat) :
    s.recovered.getD i 0x00 =
      lagrange s.tables (fun j => s.xpt (s.shpos j).toNat) s.shval s.kNat (s.xpt i) := by
  simp [recovered_eq, hi]

end

/-! ## What `RECONSTRUCT` reads (R141) -/

/-- `mem` differs from the memory of `s` at most in the slots from K on. -/
def SameButUnselectedSlots (s : State) (mem : Memory) : Prop :=
  ∀ x : Nat, ¬(0x300 + s.k.toNat ≤ x ∧ x < 0x400) → ¬(0x400 + s.k.toNat ≤ x ∧ x < 0x500) →
    Memory.read mem x = Memory.read s.mem x

section
variable {s : State} {mem : Memory} (h : SameButUnselectedSlots s mem)
include h

theorem SameButUnselectedSlots.shpos {j : Nat} (hj : j < s.kNat) :
    State.shpos { s with mem := mem } j = s.shpos j := by
  have hk := s.k.isLt
  rw [State.kNat] at hj
  exact h _ (by rw [shposBase]; omega) (by rw [shposBase]; omega)

theorem SameButUnselectedSlots.shval {j : Nat} (hj : j < s.kNat) :
    State.shval { s with mem := mem } j = s.shval j := by
  have hk := s.k.isLt
  rw [State.kNat] at hj
  exact h _ (by rw [shvalBase]; omega) (by rw [shvalBase]; omega)

theorem SameButUnselectedSlots.read_of_outBase_le {x : Nat} (hx : outBase ≤ x) :
    Memory.read mem x = Memory.read s.mem x := by
  rw [outBase] at hx
  exact h x (by omega) (by omega)

theorem SameButUnselectedSlots.xpt (i : Nat) : State.xpt { s with mem := mem } i = s.xpt i :=
  h.read_of_outBase_le (by rw [outBase, xptBase]; omega)

theorem SameButUnselectedSlots.someShardOutOfRange :
    State.someShardOutOfRange { s with mem := mem } = s.someShardOutOfRange := by
  rw [Bool.eq_iff_iff, someShardOutOfRange_iff, someShardOutOfRange_iff]
  exact exists_congr fun j => and_congr_right fun hj => by rw [h.shpos hj]; rfl

theorem SameButUnselectedSlots.someShardDuplicated :
    State.someShardDuplicated { s with mem := mem } = s.someShardDuplicated := by
  rw [Bool.eq_iff_iff, someShardDuplicated_iff, someShardDuplicated_iff]
  refine exists_congr fun j => exists_congr fun l => and_congr_right fun hjl => and_congr_right fun hl => ?_
  rw [h.shpos (Nat.lt_trans hjl hl), h.shpos hl]

theorem SameButUnselectedSlots.reconstructError :
    State.reconstructError { s with mem := mem } = s.reconstructError := by
  rw [State.reconstructError, State.reconstructError, h.someShardOutOfRange, h.someShardDuplicated]
  rfl

theorem SameButUnselectedSlots.recovered : State.recovered { s with mem := mem } = s.recovered := by
  rw [recovered_eq, recovered_eq]
  refine List.map_congr_left fun i _ => ?_
  rw [h.xpt]
  exact lagrange_congr _ (fun j hj => by rw [h.shpos hj, h.xpt]) fun j hj => h.shval hj

end

/-! ## Recovery of the data (42_encoder.md R126, R144) -/

/-- Any n values of the interpolating polynomial at distinct points determine it. -/
theorem lagrange_resample {poly : Byte} (h : coversGroup (genExp poly) = true) {X V Y W : Nat → Byte} {n : Nat}
    (hX : DistinctPoints X n) (hY : DistinctPoints Y n)
    (hW : ∀ j < n, W j = lagrange (genTables poly) X V n (Y j)) (x : Byte) :
    lagrange (genTables poly) Y W n x = lagrange (genTables poly) X V n x := by
  obtain ⟨F, _, φ, hφ⟩ := exists_fieldReading h
  have hdeg := Lagrange.degree_interpolate_lt (φ ∘ V) (hφ.injOn_points hX)
  rw [Finset.card_range] at hdeg
  refine hφ.injective ?_
  rw [hφ.map_lagrange hX h, hφ.map_lagrange_eq_eval hY h hdeg fun j hj => by rw [hW j hj, hφ.map_lagrange hX h]]

/-- Every symbol of the codeword, data or redundancy, is the value of one polynomial at its position's point. -/
theorem encode_cw {s t : State} (h : Inv s) (hs : s.sv = true) (hd : s.dlen = s.k) (hx : exec .encode s = .next t)
    {i : Nat} (hi : i < s.codeLength) : t.cw i = lagrange s.tables s.xpt s.data s.kNat (s.xpt i) := by
  obtain hlt | hle := Nat.lt_or_ge i s.kNat
  · obtain ⟨t', hx', -, hdata⟩ := encodeIsSystematic s h hs hd
    obtain rfl : t' = t := Host.Outcome.next.inj (hx'.symm.trans hx)
    obtain ⟨hcw, hnode⟩ := hdata i hlt
    exact hcw.trans hnode.symm
  · obtain ⟨hf, -, -⟩ := h.schemeOk hs
    obtain ⟨mem, hx', -, hcode, -⟩ := encodeWritesCodeword s h.mem_wf hf hs hd
    obtain rfl := Host.Outcome.next.inj (hx'.symm.trans hx)
    exact hcode i hle hi

/-- The configuration of a valid scheme fixes the tables and the points (10_state.md R36, R37). -/
theorem Inv.tables_and_points_eq {s u : State} (hi : Inv s) (hs : s.sv = true) (hiu : Inv u) (hu : u.sv = true)
    (hpoly : u.poly = s.poly) (hk : u.k = s.k) (hm : u.m = s.m) (hscheme : u.scheme = s.scheme) :
    u.tables = s.tables ∧ ∀ i < u.codeLength, u.xpt i = s.xpt i := by
  obtain ⟨hf, -, -⟩ := hi.schemeOk hs
  obtain ⟨hfu, -, -⟩ := hiu.schemeOk hu
  have hlen : u.codeLength = s.codeLength := by rw [State.codeLength, hk, hm, State.codeLength]
  have ht : u.tables = s.tables := by rw [(hiu.fieldOk hfu).2, (hi.fieldOk hf).2, hpoly]
  exact ⟨ht, fun i h => by rw [hiu.xpt_eq hu h, hi.xpt_eq hs (hlen ▸ h), hscheme, ht]⟩

end Sys2Proof.Machine

section
open Sys2Proof Sys2Proof.Machine

/-- Settles O43: the block stored at `OUT` is the list of the recovered symbols, of K entries. -/
theorem reconstructWritesData : Obligations.ReconstructWritesData := by
  unfold Obligations.ReconstructWritesData
  intro s hm hf hs hn hsh
  have hlen := recovered_length s
  have hout := Memory.sameOutside_writeBlock hm outBase s.recovered
  rw [hlen] at hout
  refine ⟨_, reconstruct_succeeds (hsh.reconstructError hf hs hn), fun i hi => ?_, hout⟩
  exact (Memory.read_writeBlock_entry hm outBase (hlen.symm ▸ hi)).trans (recovered_getD hi)

/-- Settles O44: the four tests of `RECONSTRUCT`, made in this order. -/
theorem reconstructErrors : Obligations.ReconstructErrors := by
  unfold Obligations.ReconstructErrors
  refine fun s => ⟨fun hv => ?_, fun hf hs hn => ?_, fun hf hs hn hout => ?_, fun hf hs hn hrange hdup => ?_⟩
  · exact reconstruct_raises (reconstructError_notConfigured hv)
  · exact reconstruct_raises (reconstructError_invalidShardCount hf hs hn)
  · exact reconstruct_raises
      (reconstructError_positionOutOfRange hf hs hn ((someShardOutOfRange_iff s).mpr hout))
  · exact reconstruct_raises (reconstructError_corruptedEvaluationPoints hf hs hn
      (someShardOutOfRange_eq_false hrange) ((someShardDuplicated_iff s).mpr hdup))

/-- Settles O45: the shard is a node, and the polynomial passes through its nodes. -/
theorem dataShardPassesThrough : Obligations.DataShardPassesThrough := by
  unfold Obligations.DataShardPassesThrough
  rintro s j _ h hs hn hsh hj hi rfl
  obtain ⟨hf, -, -⟩ := h.schemeOk hs
  obtain ⟨poly, hc, ht⟩ := h.field hf
  obtain ⟨mem, hx, hout, -⟩ := reconstructWritesData s h.mem_wf hf hs hn hsh
  refine ⟨_, hx, rfl, (hout _ hi).trans ?_⟩
  rw [ht]
  exact lagrange_node hc (hsh.distinct_points h hs) hj

/-- Settles O46: both runs raise the same error, or both store the same block. -/
theorem unselectedSlotsAreNotRead : Obligations.UnselectedSlotsAreNotRead := by
  unfold Obligations.UnselectedSlotsAreNotRead
  intro s mem hm hm' h
  replace h : SameButUnselectedSlots s mem := h
  have hout (i : Nat) : Memory.read mem (outBase + i) = Memory.read s.mem (outBase + i) :=
    h.read_of_outBase_le (Nat.le_add_right _ _)
  rw [reconstruct_eq_elim, reconstruct_eq_elim, h.reconstructError, h.recovered]
  cases s.reconstructError with
  | some e => exact ⟨_, _, rfl, rfl, rfl, fun i _ => hout i⟩
  | none =>
    refine ⟨_, _, rfl, rfl, rfl, fun i _ => ?_⟩
    exact (Memory.read_writeBlock hm' _ _ _).trans (hout i ▸ (Memory.read_writeBlock hm _ _ _).symm)

/-- Settles O47: the shards are values of the codeword's polynomial, which they determine, and its values at the data
points are the data. -/
theorem reconstructInvertsEncode : Obligations.ReconstructInvertsEncode := by
  unfold Obligations.ReconstructInvertsEncode
  intro s t u hi hs hd hx hiu hu hpoly hk hm hscheme hn hsh hshval
  obtain ⟨hf, -, -⟩ := hi.schemeOk hs
  obtain ⟨hfu, -, -⟩ := hiu.schemeOk hu
  obtain ⟨poly, hc, ht⟩ := hi.field hf
  obtain ⟨htu, hpts⟩ := hi.tables_and_points_eq hs hiu hu hpoly hk hm hscheme
  have hkNat : u.kNat = s.kNat := congrArg BitVec.toNat hk
  have hlen : u.codeLength = s.codeLength := by rw [State.codeLength, hk, hm, State.codeLength]
  have hX := hi.distinct_dataPoints hs
  have hY := hkNat ▸ hsh.distinct_points hiu hu
  have hsym : ∀ j < s.kNat, u.shval j =
      lagrange (genTables poly) s.xpt s.data s.kNat (u.xpt (u.shpos j).toNat) := fun j hj => by
    obtain ⟨hrange, -⟩ := hsh
    replace hj : j < u.kNat := hkNat.symm ▸ hj
    have hpos := hrange j hj
    rw [hshval j hj, encode_cw hi hs hd hx (hlen ▸ hpos), hpts _ hpos, ht]
  obtain ⟨mem, hv, hout, -⟩ := reconstructWritesData u hiu.mem_wf hfu hu hn hsh
  refine ⟨_, hv, rfl, fun i h => (hout i h).trans ?_⟩
  rw [htu, ht, hk, hpts i (Nat.lt_add_right _ h)]
  exact (lagrange_resample hc hX hY hsym _).trans (lagrange_node hc hX (hkNat ▸ h))
end
end

section
/-!
PROOFS. The system commands (45_system.md R150, R151): `NOP` and the illegal command test nothing, so each has one
equation for its next state; the word that calls it is looked up in the opcode map (30_encoding.md R63, R65).
-/

namespace Sys2Proof.Machine

theorem exec_nop (s : State) : exec .nop s = .next (s.latch 0x00).done := rfl

theorem exec_illegal (data : Byte) (s : State) :
    exec (.illegal data) s = .next ((s.latch data).raise .illegalCommand) := rfl

/-- The word of a byte outside the opcode map decodes to the illegal command with that byte (R65, R67). -/
theorem decode_commandWord_of_not_mem {data : Byte} (h : data ∉ opcodes) :
    decode (commandWord data) = .ok (.illegal data) :=
  decodeCommand_of_not_mem h ▸ decode_commandWord data

end Sys2Proof.Machine

section
open Sys2Proof Sys2Proof.Machine

/-- Settles O48: 0x80000 is the word of the byte 0x00, which the opcode map gives to `NOP`. -/
theorem nopClearsError : Obligations.NopClearsError := by
  unfold Obligations.NopClearsError
  exact ⟨decode_commandWord 0x00, exec_nop⟩

/-- Settles O49: R65's bytes are those outside the opcode map, and the illegal command raises its error in any state. -/
theorem illegalCommandReported : Obligations.IllegalCommandReported := by
  unfold Obligations.IllegalCommandReported
  intro s v hv
  have hop : v ∉ opcodes := (not_mem_opcodes_iff v).mpr hv
  exact ⟨decode_commandWord_of_not_mem hop, exec_illegal v s⟩
end
end

section
/-!
PROOFS. The error model (60_exceptions.md R163, R164, R169): every instruction answers, a failing command touches the
error indication and little else, and what it tested stands as it found it, so it fails again.
-/

namespace Sys2Proof.Machine

/-! ## Every instruction answers (R164, R171) -/

theorem exec_answers (i : Instr) (s : State) : ∃ t, exec i s = .next t := by
  by_cases hw : i.wf = true
  · obtain ⟨_, _, -, h⟩ | ⟨_, _, -, h⟩ | ⟨-, _, h, -⟩ := exec_cases s hw <;> exact ⟨_, h⟩
  · cases i with
    | wr addr v =>
      obtain rfl : addr = 0x000 := by simpa [Instr.wf] using hw
      obtain ⟨hcmd, -⟩ := decodeCommand_isCommand v
      obtain ⟨t, h, -⟩ := exec_command s hcmd
      exact ⟨t, (exec_wr_cmd s v).trans h⟩
    | illegal data => exact ⟨_, exec_illegal data s⟩
    | _ => exact absurd rfl hw

/-! ## The three ways a command fails (R163) -/

theorem commandByte_schemeInit : commandByte .schemeInit = 0x02 := by decide

/-- `exec_command`, for a next state already named. -/
theorem CommandResult.of_exec {i : Instr} {s t : State} (hi : isCommand i = true) (h : exec i s = .next t) :
    CommandResult s i t := by
  obtain ⟨u, hx, hu⟩ := exec_command s hi
  cases hx.symm.trans h
  exact hu

/-- A failing command only reports its error, or it is a `SCHEME_INIT` that also clears `SV`, or a `FIELD_INIT` that
rejects the polynomial. The byte latched is a variable, as in `CommandResult`. -/
theorem CommandResult.failure_cases {i : Instr} {s t : State} (h : CommandResult s i t) (ht : t.errcode ≠ 0x00) :
    (∃ op e, op = commandByte i ∧ e ∈ plainErrors i ∧ t = (s.latch op).raise e) ∨
    (i = .schemeInit ∧ t = (s.latch 0x02).invalidateScheme.raise .invalidConfiguration) ∨
    (i = .fieldInit ∧ t = (s.latch 0x01).invalidateScheme.rejectField.raise .nonPrimitivePolynomial) := by
  cases h with
  | failed hop e he => exact .inl ⟨_, e, hop, he, rfl⟩
  | schemeRejected => exact .inr (.inl ⟨rfl, rfl⟩)
  | fieldRejected => exact .inr (.inr ⟨rfl, rfl⟩)
  | nop | scalar | fieldAccepted | schemeAccepted | encoded | reconstructed => exact absurd rfl ht

/-! ## A command that failed fails again (R169) -/

/-- No command reads `CMD` or the error indication, and each overwrites both. -/
theorem exec_latch_raise {i : Instr} (hi : isCommand i = true) (s : State) (op : Byte) (e : ErrorKind) :
    exec i ((s.latch op).raise e) = exec i s := by
  cases i with
  | rd | wr => cases hi
  | _ => rfl

/-- The error indications of two equal answers agree. -/
theorem errcode_eq_of_next_eq {s t : State} (h : (.next s : Host.Outcome State Fault Refusal) = .next t) :
    s.errcode = t.errcode := congrArg State.errcode (Host.Outcome.next.inj h)

/-- Only an illegal configuration under a valid field makes `SCHEME_INIT` raise `InvalidConfiguration`
(43_evaluation_scheme.md R130). -/
theorem illegal_of_schemeInit_rejects {s t : State} (h : exec .schemeInit s = .next t)
    (ht : t.errcode = ErrorKind.invalidConfiguration.code) : s.fv = true ∧ s.legalConfiguration = false := by
  cases hf : s.fv
  · exact absurd (ht.symm.trans (errcode_eq_of_next_eq (h.symm.trans (schemeInit_notConfigured hf))))
      (by decide : ErrorKind.invalidConfiguration.code ≠ ErrorKind.notConfigured.code)
  · refine ⟨rfl, Bool.eq_false_iff.mpr fun hl => ErrorKind.code_ne_zero .invalidConfiguration ?_⟩
    exact ht.symm.trans (errcode_eq_of_next_eq (h.symm.trans (schemeInit_succeeds hf hl)))

/-- Only a polynomial that fails the check makes `FIELD_INIT` fail (41_field_construction.md R110). -/
theorem not_coversGroup_of_fieldInit_fails {s t : State} (h : exec .fieldInit s = .next t) (ht : t.errcode ≠ 0x00) :
    coversGroup (genExp s.poly) = false :=
  Bool.eq_false_iff.mpr fun hc => ht (errcode_eq_of_next_eq (h.symm.trans (fieldInit_accepts hc)))

end Sys2Proof.Machine

section
open Sys2Proof Sys2Proof.Machine

/-- Settles O50: every instruction answers, so of the four kinds of step only the malformed word stops. -/
theorem everyInstructionAnswers : Obligations.EveryInstructionAnswers := by
  unfold Obligations.EveryInstructionAnswers
  refine ⟨exec_answers, fun s => ?_⟩
  unfold step
  obtain ⟨-, hf⟩ | ⟨rest, -, hf⟩ | ⟨w, rest, i, -, -, hf⟩ | ⟨w, rest, e, hp, hd, hf⟩ := fetch_cases s <;> rw [hf]
  · exact .inl ⟨_, rfl⟩
  · exact .inl ⟨_, rfl⟩
  · exact .inl (exec_answers i _)
  · exact .inr ⟨w, rest, e, hp, hd, rfl⟩

/-- Settles O52: the three ways a command fails; the code tells the two failures of `SCHEME_INIT` apart. -/
theorem failureChangesNothingElse : Obligations.FailureChangesNothingElse := by
  unfold Obligations.FailureChangesNothingElse
  intro i s t hi hx ht
  obtain ⟨op, e, hop, he, rfl⟩ | ⟨rfl, rfl⟩ | ⟨rfl, rfl⟩ := (CommandResult.of_exec hi hx).failure_cases ht
  · refine ⟨fun _ _ => hop ▸ rfl, ?_, ?_, ?_⟩ <;> rintro rfl
    · cases List.mem_singleton.mp he
      obtain rfl : op = 0x02 := hop.trans commandByte_schemeInit
      exact fun _ => rfl
    · cases List.mem_singleton.mp he
      exact fun h7 => absurd rfl h7
    · cases he
  · exact ⟨fun _ hs => absurd rfl hs, nofun, fun _ _ => rfl, nofun⟩
  · exact ⟨fun hf => absurd rfl hf, nofun, nofun, fun _ => rfl⟩

/-- Settles O53: after a mere report the command does the same again. The other two failures keep all the command
tests: `FV` and the configuration registers for `SCHEME_INIT`, `POLY` for `FIELD_INIT`. -/
theorem failedCommandFailsAgain : Obligations.FailedCommandFailsAgain := by
  unfold Obligations.FailedCommandFailsAgain
  intro i s t hi hx ht
  obtain ⟨op, e, -, -, rfl⟩ | ⟨rfl, rfl⟩ | ⟨rfl, rfl⟩ := (CommandResult.of_exec hi hx).failure_cases ht
  · exact ⟨_, (exec_latch_raise hi s op e).trans hx, rfl⟩
  · obtain ⟨hf, hl⟩ := illegal_of_schemeInit_rejects hx rfl
    exact ⟨_, schemeInit_invalidConfiguration hf hl, rfl⟩
  · have hc := not_coversGroup_of_fieldInit_fails hx ht
    exact ⟨_, fieldInit_rejects hc, rfl⟩
end
end

section
/-!
PROOFS. Reset and the host's events (70_reset_and_hazards.md R180, R181, R190): one equation for each kind of step, the
word placed in front of the events, and what the commands and the reads do in the reset state.
-/

namespace Sys2Proof.Machine

/-! ## The four kinds of step -/

section
variable {s : State} {w : Txn} {rest : List HostEvent}

theorem step_idle (h : s.pending = []) : step s = .next s := by
  rw [step, fetch_idle h]

theorem step_reset (h : s.pending = .reset :: rest) : step s = .next (s.advance rest).environmentReset := by
  rw [step, fetch_reset h]

theorem step_instr {i : Instr} (h : s.pending = .transaction w :: rest) (hd : decode w = .ok i) :
    step s = exec i (s.advance rest) := by
  rw [step, fetch_instr h hd]

theorem step_malformed {e : DecodeError} (h : s.pending = .transaction w :: rest) (hd : decode w = .error e) :
    step s = .refused (.notATransaction w) := by
  rw [step, fetch_malformed h hd]

end

/-! ## The placed word (log entry 3) -/

/-- A table word that decodes fits the format `TXN20`, and the decoder reads the instruction from the word it holds. -/
theorem exists_txn_of_decodeTableWord {nbits n : Nat} {i : Instr} (h : decodeTableWord nbits n = some i) :
    ∃ w, txnOfTableWord nbits n = some w ∧ decode w = .ok i := by
  unfold decodeTableWord at h
  cases hw : txnOfTableWord nbits n with
  | none => simp [hw] at h
  | some w =>
    refine ⟨w, rfl, ?_⟩
    cases hd : decode w with
    | error e => simp [hw, hd, Except.toOption] at h
    | ok j => simpa [hw, hd, Except.toOption] using h

theorem withFetchWord_of_txn {nbits n : Nat} {w : Txn} (h : txnOfTableWord nbits n = some w) (s : State) :
    s.withFetchWord nbits n = { s with pending := .transaction w :: s.pending } := by
  rw [State.withFetchWord, State.placeWord, h]

/-! ## The reset state (R181) -/

/-- Every command that can raise `NotConfigured` does so while `FV` = 0, whatever else the state holds
(40_field_arithmetic.md R80; 42_encoder.md R120; 43_evaluation_scheme.md R130; 44_reconstructor.md R140). -/
theorem exec_notConfigured {i : Instr} {s : State} (hi : .notConfigured ∈ plainErrors i) (hf : s.fv = false) :
    exec i s = .next ((s.latch (commandByte i)).raise .notConfigured) := by
  cases hs : isScalar i with
  | true =>
    obtain ⟨value, hx⟩ := exec_scalar hs s
    rw [hx, scalarCommand_notConfigured hf]
  | false =>
    cases i with
    | schemeInit => exact schemeInit_notConfigured hf
    | encode => exact encode_notConfigured (.inl hf)
    | reconstruct => exact reconstruct_raises (reconstructError_notConfigured (.inl hf))
    | rd | wr | nop | fieldInit | illegal => simp [plainErrors] at hi
    | add | sub | mul | div | pow | inv | exp | log => cases hs

/-- Registers and flags are zero, the memory lists no address, and an unmapped location reads 0x00 in any state
(20_memory.md R42). -/
theorem readLoc_reset (l : Loc) : State.reset.readLoc l = 0x00 := by
  cases l with
  | status => decide
  | _ => rfl

theorem hostRead_reset (addr : Addr) : State.reset.hostRead addr = 0x00 := readLoc_reset (locOf addr)

end Sys2Proof.Machine

section
open Sys2Proof Sys2Proof.Machine

/-- Settles O7: the three kinds of step that run no instruction. -/
theorem stepOnOtherEvents : Obligations.StepOnOtherEvents := by
  unfold Obligations.StepOnOtherEvents
  exact ⟨fun _ _ hp => step_reset hp, fun _ _ _ _ hp hd => step_malformed hp hd, fun _ hp => step_idle hp⟩

/-- Settles O8: taking the placed word leaves the events, and so the state, as they were before it was placed. -/
theorem placedWordRunsNext : Obligations.PlacedWordRunsNext := by
  unfold Obligations.PlacedWordRunsNext
  intro s nbits n i h
  obtain ⟨w, hw, hd⟩ := exists_txn_of_decodeTableWord h
  rw [withFetchWord_of_txn hw, step_instr rfl hd]
  rfl

/-- Settles O10: the polynomial 0x00 is not accepted, `FV` = 0, and every location reads 0x00. -/
theorem resetBehaviour : Obligations.ResetBehaviour := by
  unfold Obligations.ResetBehaviour
  refine ⟨⟨_, exec_nop _, rfl, rfl⟩, ?_, fun i hi => ?_, fun v _ => ⟨_, exec_illegal v _, rfl, rfl⟩, fun addr => ?_⟩
  · obtain ⟨_, _, hx⟩ := fieldInitRejectsOthers State.reset (by decide)
    exact ⟨_, hx, rfl, rfl⟩
  · have hn : ∀ i ∈ [Instr.schemeInit, .encode, .reconstruct, .add, .sub, .mul, .div, .pow, .inv, .exp, .log],
      .notConfigured ∈ plainErrors i := by decide
    exact ⟨_, exec_notConfigured (hn i hi) rfl, rfl, rfl⟩
  · exact ⟨State.reset.returnByte (State.reset.hostRead addr), rfl, congrArg (fun v => [v]) (hostRead_reset addr)⟩
end
end
